-- ==== Sys2Proof/Word.lean ====
section
/-! DEFINITION. The widths of rule R7: a byte or character, and the 32-bit word of the Host interface. -/

namespace Sys2Proof

/-- A character or byte: 8 bits (R7). -/
abbrev Byte := BitVec 8

/-- A Host register word: CMD, DATA, RESULT and STAT are 32 bits wide (R7). -/
abbrev Word := BitVec 32

end Sys2Proof
end

