-- ==== Sys2Proof/Syntax.lean ====
section
/-! DEFINITION. The eight commands of spec/opcode_table.json (R81). Only the operands that stand in the command
word are arguments here; the others are in LEN, CAP, DATA and SRC (R80, R83). -/

namespace Sys2Proof

/-- A command of the CORE, one constructor per row of the opcode table (R81, R82, R84). -/
inductive Instr where
  /-- ENCLUT: read the encode ROM (R117). -/
  | enclut
  /-- DECLUT: read the decode ROM (R118). -/
  | declut
  /-- ENCSIZE: the encoded size of a byte count (R133). -/
  | encsize
  /-- DECSIZE: the maximum decoded size of an encoded length (R134). -/
  | decsize
  /-- ENCGRP: encode one group of `k` real bytes, `k` being CMD[9:8] (R84, R152). -/
  | encgrp (k : BitVec 2)
  /-- DECQUAD: decode one quartet; `final` is CMD[8] (R84, R182). -/
  | decquad (final : Bool)
  /-- ENCODE: encode SRC into DST; the presence bits SRC_P, DST_P, LEN_P are CMD[4], CMD[5], CMD[6] (R82, R160). -/
  | encode (srcP dstP lenP : Bool)
  /-- DECODE: decode SRC into DST; presence bits as for ENCODE (R82, R190). -/
  | decode (srcP dstP lenP : Bool)
  deriving DecidableEq, Repr

end Sys2Proof
end

