-- ==== Sys2Proof/WellFormed.lean ====
section
/-! DEFINITION. Which commands have an encoding: the one operand value the spec reserves is K = 0 (R84). -/

namespace Sys2Proof

/-- A command that some legal command word spells. ENCGRP needs K in 1, 2, 3: "K = 0 describes no group, so it is
reserved" (R84). Every other operand may take any value. -/
def Instr.wellFormed : Instr → Bool
  | .enclut => true
  | .declut => true
  | .encsize => true
  | .decsize => true
  | .encgrp k => k != 0
  | .decquad _ => true
  | .encode _ _ _ => true
  | .decode _ _ _ => true

end Sys2Proof
end

