-- ==== Sys2Proof/Decode.lean ====
section
/-! DEFINITION. The command word (R80): its fields, the legality condition (R86), the decoder, which is total and
names its reason when it rejects a word, and the encoder. -/

namespace Sys2Proof

/-- Why a command word is no command (R87). -/
inductive DecodeError where
  /-- OP is 0x0, 0x7 or 0xA-0xF (R81). -/
  | reservedOp
  /-- A bit that must be 0 is set: [7], [31:10], or one reserved for this OP (R80, R82, R84). -/
  | reservedBit
  /-- ENCGRP with K = 0 (R84). -/
  | emptyGroup
  deriving DecidableEq, Repr

/-- OP, bits [3:0] (R80). -/
def cmdOp (w : Word) : BitVec 4 := w.extractLsb' 0 4

/-- SRC_P, bit [4] (R80). -/
def cmdSrcP (w : Word) : Bool := w.getLsbD 4

/-- DST_P, bit [5] (R80). -/
def cmdDstP (w : Word) : Bool := w.getLsbD 5

/-- LEN_P, bit [6] (R80). -/
def cmdLenP (w : Word) : Bool := w.getLsbD 6

/-- The presence bits [6:4] together (R82). -/
def cmdPresence (w : Word) : BitVec 3 := w.extractLsb' 4 3

/-- AUX, bits [9:8] (R84). -/
def cmdAux (w : Word) : BitVec 2 := w.extractLsb' 8 2

/-- The bits reserved in every command word are 0: [31:10] and [7] (R80). -/
def cmdReservedClear (w : Word) : Bool := w.extractLsb' 10 22 == 0 && !w.getLsbD 7

/-- `legal_cmd(w)`, case by case as rule R86 writes it. -/
def legalCmd (w : Word) : Bool :=
  cmdReservedClear w &&
    match (cmdOp w).toNat with
    | 0x1 | 0x2 | 0x3 | 0x4 => w.extractLsb' 4 6 == 0
    | 0x5 => cmdPresence w == 0 && cmdAux w != 0
    | 0x6 => cmdPresence w == 0 && !w.getLsbD 9
    | 0x8 | 0x9 => cmdAux w == 0
    | _ => false

/-- The command `i`, provided no bit reserved for its OP is set (R82, R84). -/
def cmdIf (clear : Bool) (i : Instr) : Except DecodeError Instr :=
  if clear then .ok i else .error .reservedBit

/-- The decoder: the command a CMD word spells (R81, R82, R84), or why it is reserved (R87). -/
def decode (w : Word) : Except DecodeError Instr :=
  if !cmdReservedClear w then .error .reservedBit
  else
    match (cmdOp w).toNat with
    | 0x1 => cmdIf (cmdPresence w == 0 && cmdAux w == 0) .enclut
    | 0x2 => cmdIf (cmdPresence w == 0 && cmdAux w == 0) .declut
    | 0x3 => cmdIf (cmdPresence w == 0 && cmdAux w == 0) .encsize
    | 0x4 => cmdIf (cmdPresence w == 0 && cmdAux w == 0) .decsize
    | 0x5 =>
      if cmdAux w == 0 then .error .emptyGroup
      else cmdIf (cmdPresence w == 0) (.encgrp (cmdAux w))
    | 0x6 => cmdIf (cmdPresence w == 0 && !w.getLsbD 9) (.decquad (w.getLsbD 8))
    | 0x8 => cmdIf (cmdAux w == 0) (.encode (cmdSrcP w) (cmdDstP w) (cmdLenP w))
    | 0x9 => cmdIf (cmdAux w == 0) (.decode (cmdSrcP w) (cmdDstP w) (cmdLenP w))
    | _ => .error .reservedOp

/-- The command word with the given fields and every reserved bit 0 (R80). -/
def packCmd (aux : BitVec 2) (lenP dstP srcP : Bool) (op : BitVec 4) : Word :=
  0#22 ++ aux ++ 0#1 ++ BitVec.ofBool lenP ++ BitVec.ofBool dstP ++ BitVec.ofBool srcP ++ op

/-- The command word of an instruction (R81, R88). -/
def encode : Instr → Word
  | .enclut => packCmd 0 false false false 0x1
  | .declut => packCmd 0 false false false 0x2
  | .encsize => packCmd 0 false false false 0x3
  | .decsize => packCmd 0 false false false 0x4
  | .encgrp k => packCmd k false false false 0x5
  | .decquad final => packCmd (0#1 ++ BitVec.ofBool final) false false false 0x6
  | .encode srcP dstP lenP => packCmd 0 lenP dstP srcP 0x8
  | .decode srcP dstP lenP => packCmd 0 lenP dstP srcP 0x9

/-- The command word whose low `nbits` bits are those of `w` and whose other bits are 0. Every command is one
32-bit word (R80). -/
def tableWord (nbits w : Nat) : Word := BitVec.ofNat 32 (w % 2 ^ nbits)

/-- The instruction the decoder reads from an opcode-table word; none where it refuses the word. -/
def decodeTableWord (nbits w : Nat) : Option Instr := (decode (tableWord nbits w)).toOption

end Sys2Proof
end

