-- ==== Sys2Proof/Config.lean ====
section
/-! DEFINITION. What a build fixes: the length width LEN_W, the one parameter of the model (R6).
The ROM contents and the alphabet, which the spec fixes for every build, are in Machine/Tables.lean. -/

namespace Sys2Proof

/-- The build parameter LEN_W with its constraint `4 <= LEN_W <= 31` (R6): every value of this type is a
legal width and every legal width is one. `aboveFour` is how far LEN_W lies above 4. -/
structure LenW where
  aboveFour : Fin 28
  deriving DecidableEq, Repr, Inhabited

/-- The width LEN_W in bits (R6). -/
def LenW.bits (w : LenW) : Nat := 4 + w.aboveFour.val

/-- The number of cells of SRC and of DST, 2^LEN_W (R22, R23); a LEN_W-bit register holds the values below it. -/
def LenW.cells (w : LenW) : Nat := 2 ^ w.bits

/-- LEN_W = 16, the width the spec's test vectors are written for (95_test_vectors.md). -/
def LenW.sixteen : LenW := ⟨12⟩

/-- DESIGN CHOICE (assumption log 1). LEN_W of the build: the spec leaves its value OPEN (R6), so the constant
has no body and nothing can be proved of it beyond `4 <= LEN_W <= 31`. -/
opaque Config.lenW : LenW

end Sys2Proof
end

