-- ==== Sys2Proof/Machine/State.lean ====
section
/-! DEFINITION. The state of the CORE (R20), the Host agent that drives it (R8), and why a step can stop (R239). -/

namespace Sys2Proof.Machine

/-- A buffer, SRC or DST: its cells that hold a byte, by rising index. An index that is not listed holds no value
(R22, R23). -/
abbrev Memory := List Host.Cell

/-- The STATUS codes (R85). Code 7 is "reserved; never produced" and has no constructor. -/
inductive Status where
  | ok
  | param
  | capacity
  | length
  | invBody
  | invFinal
  | badOp
  deriving DecidableEq, Repr

/-- PHASE (R32). The values 5-7 are "unreachable: no rule enters them" and have no constructor. -/
inductive Phase where
  | idle
  | start
  | encGrp
  | decBody
  | decFinal
  deriving DecidableEq, Repr

/-- The two agents (R8). -/
inductive Agent where
  | host
  | core
  deriving DecidableEq, Repr

/-- One atomic action of the Host (R72, R88; R271 for reset). -/
inductive HostOp where
  /-- `W off val`: write a 32-bit register (R24). -/
  | writeReg (off : Nat) (v : Word)
  /-- `R off`: read a 32-bit register (R24). -/
  | readReg (off : Nat)
  /-- `S i b`: SRC[i] <- b (R62). -/
  | writeSrc (i : Nat) (b : Byte)
  /-- Read SRC[i] (R62). -/
  | readSrc (i : Nat)
  /-- `T i b`: DST[i] <- b (R62). -/
  | writeDst (i : Nat) (b : Byte)
  /-- `D i`: read DST[i] (R62). -/
  | readDst (i : Nat)
  /-- `WAIT`: repeat `RD STAT` until DONE = 1 (R89). -/
  | wait
  /-- Assert reset while powered (R260, R271). -/
  | reset
  deriving DecidableEq, Repr

/-- What a Host read gave back: a register word, or a cell's byte, none where the cell holds no value (R62). -/
inductive HostRead where
  | reg (off : Nat) (v : Word)
  | src (i : Nat) (v : Option Byte)
  | dst (i : Nat) (v : Option Byte)
  deriving DecidableEq, Repr

/-- The whole machine. A LEN_W-bit register is a Nat, cut to LEN_W bits where it is stored (assumption log 2). -/
structure State where
  /-- LEN_W of this build; no step writes it (R6, R20; assumption log 1). -/
  lenW : LenW
  /-- SRC, the source buffer (R22). -/
  src : Memory
  /-- DST, the destination buffer (R23). -/
  dst : Memory
  /-- CMD (R25). -/
  cmd : Word
  /-- LEN, LEN_W bits (R26). -/
  len : Nat
  /-- CAP, LEN_W bits (R27). -/
  cap : Nat
  /-- DATA (R28). -/
  data : Word
  /-- STAT.DONE (R29). -/
  done : Bool
  /-- STAT.STATUS (R29, R85). -/
  status : Status
  /-- OUT_LEN, LEN_W bits (R30). -/
  outLen : Nat
  /-- RESULT (R31). -/
  result : Word
  /-- PHASE; BUSY is PHASE ≠ IDLE (R32, R35). -/
  phase : Phase
  /-- L_CMD (R33). -/
  lCmd : Word
  /-- L_LEN, LEN_W bits (R33). -/
  lLen : Nat
  /-- L_CAP, LEN_W bits (R33). -/
  lCap : Nat
  /-- L_DATA (R33). -/
  lData : Word
  /-- QIDX, LEN_W bits: the next group or quartet (R34). -/
  qidx : Nat
  /-- NQ, LEN_W bits: the number of groups or quartets (R34). -/
  nq : Nat
  /-- NB, LEN_W bits: the number of body quartets (R34). -/
  nb : Nat
  /-- PADC, 2 bits: the trailing `=` count (R34). -/
  padc : BitVec 2
  /-- WCNT, LEN_W bits: the bytes written to DST so far (R34). -/
  wcnt : Nat
  /-- The Host agent: the actions it has still to take, next first (R8, R88; assumption log 5). -/
  program : List HostOp
  /-- The interleaving: which agent moves at each step that both could take, next first (R72; assumption log 6). -/
  turns : List Agent
  /-- The Host agent: what its reads gave back, newest first (R72; assumption log 5). -/
  reads : List HostRead
  deriving DecidableEq, Repr

/-- Why a step stops. A fault ends the run without a final state (R240; assumption log 8). -/
inductive Fault where
  /-- F_SRC_WRITE_BUSY (R239): raised by a Host write of an SRC cell while BUSY. Safe: the spec fixes no result. -/
  | srcWriteBusy
  /-- F_DST_WRITE_BUSY (R239): raised by a Host write of a DST cell while BUSY. Safe: the spec fixes no result. -/
  | dstWriteBusy
  /-- F_SRC_UNWRITTEN (R239, R65): raised by a CORE step that reads an SRC cell that holds no value. Safe: the spec
  says no more of the value read. -/
  | srcUnwritten
  /-- An access to a cell index of 2^LEN_W or more, which names no cell (R61): raised by a Host access with such an
  index, and by a CORE step only in states no run reaches (R64). Safe: such an access does not exist. -/
  | noSuchCell
  /-- An ENC_GRP step with no source byte left, in which the group transform would be given K = 0, which is "never
  presented" (R150): raised by the CORE only in states no run reaches. Safe: no run ends here. -/
  | emptyGroup
  deriving DecidableEq, Repr

/-- Why an instruction has no meaning. -/
inductive Refusal where
  /-- Raised by exec for a command that has no meaning yet; no arm of exec answers so. Safe. -/
  | notModelled (mnemonic : String)
  deriving DecidableEq, Repr

/-- The power-on state of a build of width `w` (R40): every register at its stated value, no cell holding a value,
and the Host with nothing to do. The latches and the sequencer registers, whose reset value is "unspecified"
(R33, R34), hold 0: DESIGN CHOICE (assumption log 3). -/
def State.powerOn (w : LenW) : State where
  lenW := w
  src := []
  dst := []
  cmd := 0
  len := 0
  cap := 0
  data := 0
  done := false
  status := .ok
  outLen := 0
  result := 0
  phase := .idle
  lCmd := 0
  lLen := 0
  lCap := 0
  lData := 0
  qidx := 0
  nq := 0
  nb := 0
  padc := 0
  wcnt := 0
  program := []
  turns := []
  reads := []

/-- The machine right after power-on reset (R40, R260). -/
def State.reset : State := State.powerOn Config.lenW

end Sys2Proof.Machine
end

