-- ==== Sys2Proof/Machine/Ops.lean ====
section
/-! DEFINITION. The named operations over the buffers and the registers: one cell at a time (R63), the accepted
command (R41), `finish` (R231), the sequencer updates (R160-R161, R190-R192) and reset (R260). -/

namespace Sys2Proof.Machine

/-! ### Buffers -/

/-- The canonical form of a buffer: its cells stand by strictly rising index. -/
abbrev Memory.wf (m : Memory) : Prop := m.Pairwise (fun x y => x.1 < y.1)

/-- The byte cell `i` holds; none where it holds no value (R22, R23, R62). -/
def Memory.read : Memory → Nat → Option Byte
  | [], _ => none
  | (a, b) :: m, i => if i = a then some b else Memory.read m i

/-- Cell `i` holds `v` from now on; every other cell keeps what it held (R22, R23). -/
def Memory.write : Memory → Nat → Byte → Memory
  | [], i, v => [(i, v)]
  | (a, b) :: m, i, v =>
    if i < a then (i, v) :: (a, b) :: m
    else if i = a then (i, v) :: m
    else (a, b) :: Memory.write m i v

/-- The bytes `vs` in cells `i`, `i + 1`, ..., lowest index first (R66). -/
def Memory.writeList : Memory → Nat → List Byte → Memory
  | m, _, [] => m
  | m, i, v :: vs => Memory.writeList (m.write i v) (i + 1) vs

/-! ### Registers -/

/-- `v` cut to LEN_W bits, `v[LEN_W-1:0]` (R6, R26). -/
def State.fit (s : State) (v : Nat) : Nat := v % s.lenW.cells

/-- BUSY: "BUSY is not a separate register. It is PHASE ≠ IDLE" (R35). -/
def State.busy (s : State) : Bool := s.phase != .idle

/-- `finish(st, ol, r)`, the one way an operation ends (R231): it stands in for a trap entry (R236). -/
def State.finish (s : State) (st : Status) (ol : Nat) (r : Word) : State :=
  { s with status := st, outLen := s.fit ol, result := r, done := true, phase := .idle }

/-- An idle CORE accepts the command word `w`: it latches its operands and starts (R41). -/
def State.acceptCmd (s : State) (w : Word) : State :=
  { s with
    cmd := w, lCmd := w, lLen := s.len, lCap := s.cap, lData := s.data, done := false, phase := .start }

/-- LEN <- wdata[LEN_W-1:0] (R26). -/
def State.setLen (s : State) (v : Word) : State := { s with len := s.fit v.toNat }

/-- CAP <- wdata[LEN_W-1:0] (R27). -/
def State.setCap (s : State) (v : Word) : State := { s with cap := s.fit v.toNat }

/-- DATA <- wdata (R28). -/
def State.setData (s : State) (v : Word) : State := { s with data := v }

/-- SRC[i] <- b (R62). -/
def State.putSrc (s : State) (i : Nat) (b : Byte) : State := { s with src := s.src.write i b }

/-- DST[i] <- b, DST[i+1] <- b', ... (R62, R66). -/
def State.putDst (s : State) (i : Nat) (bs : List Byte) : State := { s with dst := s.dst.writeList i bs }

/-- The setup of an ENCODE of `groups` groups (R160). -/
def State.beginEncode (s : State) (groups : Nat) : State :=
  { s with nq := s.fit groups, qidx := 0, wcnt := 0, phase := .encGrp }

/-- PADC <- p (R190). -/
def State.setPadc (s : State) (p : BitVec 2) : State := { s with padc := p }

/-- The setup of a DECODE of `quartets` quartets, `bodies` of them body quartets (R190). -/
def State.beginDecode (s : State) (quartets bodies : Nat) : State :=
  { s with
    nq := s.fit quartets, nb := s.fit bodies, qidx := 0, wcnt := 0,
    phase := if 0 < bodies then .decBody else .decFinal }

/-- WCNT <- WCNT + n (R161, R191, R192). -/
def State.countBytes (s : State) (n : Nat) : State := { s with wcnt := s.fit (s.wcnt + n) }

/-- QIDX <- QIDX + 1 (R161, R191). -/
def State.nextQuartet (s : State) : State := { s with qidx := s.fit (s.qidx + 1) }

/-- PHASE <- DEC_FINAL (R191). -/
def State.enterFinal (s : State) : State := { s with phase := .decFinal }

/-- Reset while powered: every register takes its power-on value, and LEN_W, SRC, DST and the Host agent are as
they were (R260, R261). The latches and sequencer registers take their power-on value too: DESIGN CHOICE
(assumption log 4). -/
def State.resetRegs (s : State) : State :=
  { State.powerOn s.lenW with
    src := s.src, dst := s.dst, program := s.program, turns := s.turns, reads := s.reads }

/-! ### The Host agent -/

/-- The Host has `ops` still to do. -/
def State.setProgram (s : State) (ops : List HostOp) : State := { s with program := ops }

/-- The Host has read `r`. -/
def State.logRead (s : State) (r : HostRead) : State := { s with reads := r :: s.reads }

/-- The interleaving still to come is `ts`. -/
def State.setTurns (s : State) (ts : List Agent) : State := { s with turns := ts }

/-! ### CORE accesses to the buffers -/

/-- `SRC[i]` as a CORE step reads it (R63): a fault where the cell holds no value (R65) or there is no such cell. -/
def State.loadSrc (s : State) (i : Nat) : Except Fault Byte :=
  if i < s.lenW.cells then
    match s.src.read i with
    | some b => .ok b
    | none => .error .srcUnwritten
  else .error .noSuchCell

/-- `SRC[i]`, but 0x00 without a read where the condition fails (R161). -/
def State.loadSrcIf (s : State) (c : Bool) (i : Nat) : Except Fault Byte :=
  if c then s.loadSrc i else .ok 0

/-- `DST[i] <- b` for the bytes of `bs` in turn, as a CORE step writes them (R63). -/
def State.storeDst (s : State) (i : Nat) (bs : List Byte) : Except Fault State :=
  if i + bs.length ≤ s.lenW.cells then .ok (s.putDst i bs) else .error .noSuchCell

/-- The outcome of a step whose effect may fault. A fault makes no other state change (R240). -/
def outcomeOf : Except Fault State → Host.Outcome State Fault Refusal
  | .ok s => .next s
  | .error f => .fault f

end Sys2Proof.Machine
end

