-- ==== Sys2Proof/Machine/Flags.lean ====
section
/-! DEFINITION. The codes and the flags the Host sees: STATUS (R85), PHASE (R32) and the STAT word (R29). -/

namespace Sys2Proof.Machine

/-- The 3-bit STATUS code (R85). -/
def Status.code : Status → BitVec 3
  | .ok => 0
  | .param => 1
  | .capacity => 2
  | .length => 3
  | .invBody => 4
  | .invFinal => 5
  | .badOp => 6

/-- The 3-bit PHASE value (R32). -/
def Phase.code : Phase → BitVec 3
  | .idle => 0
  | .start => 1
  | .encGrp => 2
  | .decBody => 3
  | .decFinal => 4

/-- STAT: STATUS in [6:4], DONE in [1], BUSY in [0]; the reserved bits read 0 (R29). -/
def State.stat (s : State) : Word :=
  0#25 ++ s.status.code ++ 0#2 ++ BitVec.ofBool s.done ++ BitVec.ofBool s.busy

end Sys2Proof.Machine
end

