-- ==== Sys2Proof/Machine/HostPort.lean ====
section
/-! DEFINITION. The Host's side: the register map (R24), the buffer accesses (R62), the actions of a Host program
(R88, R89), and which agent moves next (R72). -/

namespace Sys2Proof.Machine

/-! ### The register map (R24) -/

/-- A Host read of the register at byte offset `off`. An offset not in the map, an unaligned one among them, reads
as 0 (R24, R67). -/
def State.readReg (s : State) (off : Nat) : Word :=
  match off with
  | 0x00 => s.cmd
  | 0x04 => BitVec.ofNat 32 s.len
  | 0x08 => BitVec.ofNat 32 s.cap
  | 0x0C => s.data
  | 0x10 => s.stat
  | 0x14 => BitVec.ofNat 32 s.outLen
  | 0x18 => s.result
  | _ => 0

/-- A Host write of CMD: accepted while PHASE = IDLE, else ignored (R41). -/
def State.writeCmd (s : State) (w : Word) : State := if s.busy then s else s.acceptCmd w

/-- A Host write of the register at byte offset `off`. A write to STAT, OUT_LEN, RESULT or an offset not in the map
is ignored (R24, R39, R67). -/
def State.writeReg (s : State) (off : Nat) (v : Word) : State :=
  match off with
  | 0x00 => s.writeCmd v
  | 0x04 => s.setLen v
  | 0x08 => s.setCap v
  | 0x0C => s.setData v
  | _ => s

/-! ### Host actions -/

/-- The cell `i` exists, or the access faults (R61; assumption log 10). -/
def State.ifCell (s : State) (i : Nat) (t : State) : Except Fault State :=
  if i < s.lenW.cells then .ok t else .error .noSuchCell

/-- What a Host action does to the machine and to what the Host has read. A buffer write while BUSY is a model
fault (R62, R239). -/
def hostAct (op : HostOp) (s : State) : Except Fault State :=
  match op with
  | .writeReg off v => .ok (s.writeReg off v)
  | .readReg off => .ok (s.logRead (.reg off (s.readReg off)))
  | .writeSrc i b => if s.busy then .error .srcWriteBusy else s.ifCell i (s.putSrc i b)
  | .readSrc i => s.ifCell i (s.logRead (.src i (s.src.read i)))
  | .writeDst i b => if s.busy then .error .dstWriteBusy else s.ifCell i (s.putDst i [b])
  | .readDst i => s.ifCell i (s.logRead (.dst i (s.dst.read i)))
  | .wait => .ok (s.logRead (.reg 0x10 s.stat))
  | .reset => .ok s.resetRegs

/-- The action is over after this step: always, but for WAIT, which reads STAT until DONE = 1 (R89). -/
def hostOpOver (op : HostOp) (s : State) : Bool := op != .wait || s.done

/-- One Host step: the next action of the program (R72, R88). -/
def hostStep (s : State) : Host.Outcome State Fault Refusal :=
  match s.program with
  | [] => .next s
  | op :: rest => outcomeOf (do
    let t ← hostAct op s
    return if hostOpOver op s then t.setProgram rest else t)

/-! ### Host programs (R88, R89) -/

/-- `LDSRC i, [b0, b1, ...]` (R88). -/
def ldsrc : Nat → List Byte → List HostOp
  | _, [] => []
  | i, b :: bs => .writeSrc i b :: ldsrc (i + 1) bs

/-- `LDDST i, [b0, b1, ...]` (R88). -/
def lddst : Nat → List Byte → List HostOp
  | _, [] => []
  | i, b :: bs => .writeDst i b :: lddst (i + 1) bs

/-- `CMD w` (R88). -/
def wrCmd (w : Word) : HostOp := .writeReg 0x00 w

/-- The line that issues a command, such as `ENCGRP k`, `DECQUAD final` or `ENCODE flags` (R88). -/
def issue (i : Instr) : HostOp := wrCmd (encode i)

/-- `ENC n, cap` (R89). -/
def pseudoEnc (n cap : Word) : List HostOp :=
  [.writeReg 0x04 n, .writeReg 0x08 cap, issue (.encode true true true), .wait]

/-- `DEC n, cap` (R89). -/
def pseudoDec (n cap : Word) : List HostOp :=
  [.writeReg 0x04 n, .writeReg 0x08 cap, issue (.decode true true true), .wait]

/-- `LUTE a` (R89). -/
def pseudoLute (a : Word) : List HostOp := [.writeReg 0x0C a, issue .enclut, .wait]

/-- `LUTD a` (R89). -/
def pseudoLutd (a : Word) : List HostOp := [.writeReg 0x0C a, issue .declut, .wait]

/-- `SIZEE n` (R89). -/
def pseudoSizee (n : Word) : List HostOp := [.writeReg 0x04 n, issue .encsize, .wait]

/-- `SIZED n` (R89). -/
def pseudoSized (n : Word) : List HostOp := [.writeReg 0x04 n, issue .decsize, .wait]

/-! ### Interleaving (R72) -/

/-- Both agents could take the next step: the CORE is busy and the Host has an action to take (R72, R272). -/
def State.choice (s : State) : Bool := s.busy && !s.program.isEmpty

/-- The agent that takes the next step. Where both could, `turns` decides, and the CORE moves when it says nothing
more, so that an enabled CORE step is taken in the end (R272; assumption log 6). -/
def State.nextAgent (s : State) : Option Agent :=
  if s.choice then some (s.turns.headD .core)
  else if s.busy then some .core
  else if s.program.isEmpty then none
  else some .host

/-- The state with this step's choice taken out of `turns`, if there was one. -/
def State.takeTurn (s : State) : State := if s.choice then s.setTurns s.turns.tail else s

/-- The next step is the CORE's, whatever the Host has still to do. -/
def State.coreTurn (s : State) : State := if s.choice then s.setTurns (.core :: s.turns) else s

end Sys2Proof.Machine
end

