-- ==== Sys2Proof/Machine/Operands.lean ====
section
/-! DEFINITION. Where an operation finds its operands: the packing of L_DATA and of RESULT (R83) and the bytes of a
group or quartet in SRC (R66). -/

namespace Sys2Proof.Machine

/-- The ROM address of ENCLUT and DECLUT, L_DATA[7:0] (R83). -/
def State.romAddr (s : State) : Byte := s.lData.extractLsb' 0 8

/-- L_DATA[31:24]: c0 of DECQUAD (R83). -/
def State.dataByte3 (s : State) : Byte := s.lData.extractLsb' 24 8

/-- L_DATA[23:16]: b0 of ENCGRP, c1 of DECQUAD (R83). -/
def State.dataByte2 (s : State) : Byte := s.lData.extractLsb' 16 8

/-- L_DATA[15:8]: b1 of ENCGRP, c2 of DECQUAD (R83). -/
def State.dataByte1 (s : State) : Byte := s.lData.extractLsb' 8 8

/-- L_DATA[7:0]: b2 of ENCGRP, c3 of DECQUAD (R83). -/
def State.dataByte0 (s : State) : Byte := s.lData.extractLsb' 0 8

/-- The bytes of `{c0, c1, c2, c3}`, most significant first (R66). -/
def bytes32 (v : Word) : List Byte :=
  [v.extractLsb' 24 8, v.extractLsb' 16 8, v.extractLsb' 8 8, v.extractLsb' 0 8]

/-- The bytes of `{b0, b1, b2}`, most significant first (R66). -/
def bytes24 (v : BitVec 24) : List Byte :=
  [v.extractLsb' 16 8, v.extractLsb' 8 8, v.extractLsb' 0 8]

/-- Four characters of a quartet, in source order. -/
structure Chars where
  c0 : Byte
  c1 : Byte
  c2 : Byte
  c3 : Byte
  deriving DecidableEq, Repr

/-- Quartet `q` of the source, `SRC[4q] .. SRC[4q+3]` (R66, R191). -/
def State.loadQuartet (s : State) (q : Nat) : Except Fault Chars := do
  let c0 ← s.loadSrc (4 * q)
  let c1 ← s.loadSrc (4 * q + 1)
  let c2 ← s.loadSrc (4 * q + 2)
  let c3 ← s.loadSrc (4 * q + 3)
  return ⟨c0, c1, c2, c3⟩

/-- The real bytes of a group, and 0x00 for the missing ones. -/
structure Group where
  b0 : Byte
  b1 : Byte
  b2 : Byte
  deriving DecidableEq, Repr

/-- Group `g` of the source with `k` real bytes: "a byte beyond n is never read" (R161). -/
def State.loadGroup (s : State) (g k : Nat) : Except Fault Group := do
  let b0 ← s.loadSrc (3 * g)
  let b1 ← s.loadSrcIf (2 ≤ k) (3 * g + 1)
  let b2 ← s.loadSrcIf (k == 3) (3 * g + 2)
  return ⟨b0, b1, b2⟩

end Sys2Proof.Machine
end

