-- ==== Sys2Proof/Machine/Size.lean ====
section
/-! DEFINITION. size_calc_unit (R130) and its two commands, ENCSIZE and DECSIZE (R133, R134). -/

namespace Sys2Proof.Machine

/-- `encoded_size(n) = 4 * ((n + 2) / 3)`, on unbounded naturals (R131). -/
def encodedSize (n : Nat) : Nat := 4 * ((n + 2) / 3)

/-- `len_err`, the flag of `max_decoded_size` (R132, R37). -/
def lenErr (n : Nat) : Bool := n % 4 != 0

/-- The value of `max_decoded_size(n)`: `(n / 4) * 3`, or 0 with `len_err` (R132). -/
def maxDecodedSize (n : Nat) : Nat := if lenErr n then 0 else n / 4 * 3

/-- ENCSIZE: `finish(OK, 0, zext_32(encoded_size(L_LEN)))` (R133). -/
def execEncsize (s : State) : Host.Outcome State Fault Refusal :=
  .next (s.finish .ok 0 (BitVec.ofNat 32 (encodedSize s.lLen)))

/-- DECSIZE: LENGTH when L_LEN is no multiple of 4, else the size (R134). -/
def execDecsize (s : State) : Host.Outcome State Fault Refusal :=
  if lenErr s.lLen then .next (s.finish .length 0 0)
  else .next (s.finish .ok 0 (BitVec.ofNat 32 (maxDecodedSize s.lLen)))

end Sys2Proof.Machine
end

