-- ==== Sys2Proof/Machine/Decoder.lean ====
section
/-! DEFINITION. base64_decoder_datapath: the quartet transform (R180, R181), DECQUAD (R182), and DECODE with its
START step (R190), its body step (R191) and its final step (R192). -/

namespace Sys2Proof.Machine

/-- The outputs of the quartet transform: `qd_status`, `qd_nbytes` and `qd_out` (R180). -/
structure QuartetOut where
  status : Status
  nbytes : Nat
  out : BitVec 24
  deriving DecidableEq, Repr

/-- The trailing `=` count of a quartet: 0 unless it is the last one and ends in `=` (R181). -/
def quartetPad (c2 c3 : Byte) (final : Bool) : Nat :=
  if final && isPad c3 then (if isPad c2 then 2 else 1) else 0

/-- The accepted quartet with `pad` padding characters: 3 - pad bytes, the others 0 (R181). -/
def quartetBytes (c0 c1 c2 c3 : Byte) (pad : Nat) : QuartetOut :=
  let v : BitVec 24 := val c0 ++ val c1 ++ val c2 ++ val c3
  let nb := 3 - pad
  { status := .ok
    nbytes := nb
    out := v.extractLsb' 16 8 ++ (if 2 ≤ nb then v.extractLsb' 8 8 else 0#8) ++
      (if nb = 3 then v.extractLsb' 0 8 else 0#8) }

/-- `dec_quartet(c0, c1, c2, c3, final)` (R181). -/
def decQuartet (c0 c1 c2 c3 : Byte) (final : Bool) : QuartetOut :=
  let pad := quartetPad c2 c3 final
  if pad = 0 then
    if legal c0 && legal c1 && legal c2 && legal c3 then quartetBytes c0 c1 c2 c3 pad
    else ⟨.invBody, 0, 0⟩
  else if !(legal c0 && legal c1) then ⟨.invFinal, 0, 0⟩
  else if pad = 1 && !legal c2 then ⟨.invFinal, 0, 0⟩
  else quartetBytes c0 c1 c2 c3 pad

/-- DECQUAD: decode one quartet, RESULT = `{0x00, b0, b1, b2}` (R182). -/
def execDecquad (final : Bool) (s : State) : Host.Outcome State Fault Refusal :=
  let r := decQuartet s.dataByte3 s.dataByte2 s.dataByte1 s.dataByte0 final
  .next (s.finish r.status r.nbytes (r.out.setWidth 32))

/-- Step 3 of the validation: the padding the last two source characters show. `SRC[n-2]` is read only when
`SRC[n-1]` is `=` (R190). -/
def State.sourcePad (s : State) : Except Fault (BitVec 2) := do
  let last ← s.loadSrc (s.lLen - 1)
  if isPad last then
    let prev ← s.loadSrc (s.lLen - 2)
    return if isPad prev then 2 else 1
  else return 0

/-- Step 4 of the validation, and the setup, once PADC is known (R190). -/
def State.checkCapacity (s : State) : State :=
  let quartets := s.lLen / 4
  if s.lCap < maxDecodedSize s.lLen - s.padc.toNat then s.finish .capacity 0 0
  else s.beginDecode quartets (quartets - (if 0 < s.padc.toNat then 1 else 0))

/-- DECODE, its START step: steps 1-4 of the validation, in that order, and the setup (R190, R233). PADC is written
before the capacity check, as the pseudocode has it: DEDUCED (assumption log 12). -/
def execDecode (srcP dstP lenP : Bool) (s : State) : Host.Outcome State Fault Refusal :=
  if !srcP || !dstP || !lenP || s.lLen == 0 || s.lCap == 0 then .next (s.finish .param 0 0)
  else if lenErr s.lLen then .next (s.finish .length 0 0)
  else outcomeOf (do
    let p ← s.sourcePad
    return (s.setPadc p).checkCapacity)

/-- The end of a body step that wrote its three bytes (R191). -/
def State.endBody (s : State) : State :=
  let s' := (s.countBytes 3).nextQuartet
  if s'.qidx = s'.nb then
    if s'.padc = 0 then s'.finish .ok s'.wcnt 0 else s'.enterFinal
  else s'

/-- DECODE, its body step, taken when PHASE = DEC_BODY (R191). -/
def decBodyStep (s : State) : Host.Outcome State Fault Refusal :=
  outcomeOf (do
    let c ← s.loadQuartet s.qidx
    let r := decQuartet c.c0 c.c1 c.c2 c.c3 false
    if r.status = .ok then
      let s' ← s.storeDst (3 * s.qidx) (bytes24 r.out)
      return s'.endBody
    else return s.finish .invBody s.wcnt 0)

/-- The end of a final step that wrote `n` bytes (R192). -/
def State.endFinal (s : State) (n : Nat) : State :=
  let s' := s.countBytes n
  s'.finish .ok s'.wcnt 0

/-- The bytes a final step writes: one, and a second when at least two were decoded (R192). -/
def finalBytes (r : QuartetOut) : List Byte := (bytes24 r.out).take (if 2 ≤ r.nbytes then 2 else 1)

/-- DECODE, its final step, taken when PHASE = DEC_FINAL (R192). -/
def decFinalStep (s : State) : Host.Outcome State Fault Refusal :=
  outcomeOf (do
    let c ← s.loadQuartet s.qidx
    let r := decQuartet c.c0 c.c1 c.c2 c.c3 true
    if r.status = .ok then
      let s' ← s.storeDst (3 * s.qidx) (finalBytes r)
      return s'.endFinal r.nbytes
    else return s.finish .invFinal s.wcnt 0)

end Sys2Proof.Machine
end

