-- ==== Sys2Proof/Machine/Encoder.lean ====
section
/-! DEFINITION. base64_encoder_datapath: the group transform (R150, R151), ENCGRP (R152), and ENCODE with its START
step (R160) and its group step (R161). -/

namespace Sys2Proof.Machine

/-- `ENC_ROM[zext_8(v)]` for one 6-bit field (R150, R151). -/
def encField (v : BitVec 6) : Byte := encRom (v.setWidth 8)

/-- The 24-bit value `{b0, b1', b2'}` of a group with `k` real bytes: missing bytes are zero (R151). -/
def groupBits (b0 b1 b2 : Byte) (k : Nat) : BitVec 24 :=
  b0 ++ (if 2 ≤ k then b1 else 0#8) ++ (if k = 3 then b2 else 0#8)

/-- `enc_group(b0, b1, b2, k)`: the characters `{c0, c1, c2, c3}` (R151). -/
def encGroup (b0 b1 b2 : Byte) (k : Nat) : Word :=
  let v := groupBits b0 b1 b2 k
  let c0 := encField (v.extractLsb' 18 6)
  let c1 := encField (v.extractLsb' 12 6)
  let c2 := if k = 1 then padChar else encField (v.extractLsb' 6 6)
  let c3 := if k = 1 ∨ k = 2 then padChar else encField (v.extractLsb' 0 6)
  c0 ++ c1 ++ c2 ++ c3

/-- ENCGRP: encode one group of `k` real bytes (R152). K = 0 is reserved and ends in BAD_OP (R84, R87). -/
def execEncgrp (k : BitVec 2) (s : State) : Host.Outcome State Fault Refusal :=
  if k = 0 then .next (s.finish .badOp 0 0)
  else .next (s.finish .ok 4 (encGroup s.dataByte2 s.dataByte1 s.dataByte0 k.toNat))

/-- ENCODE, its START step: parameters, capacity, the empty source, and the setup (R160). -/
def execEncode (srcP dstP lenP : Bool) (s : State) : Host.Outcome State Fault Refusal :=
  if !srcP || !dstP || !lenP then .next (s.finish .param 0 0)
  else if s.lCap < encodedSize s.lLen then .next (s.finish .capacity 0 0)
  else if s.lLen = 0 then .next (s.finish .ok 0 0)
  else .next (s.beginEncode ((s.lLen + 2) / 3))

/-- The number of real bytes of group QIDX, `min(3, L_LEN - 3*g)` (R161). -/
def State.groupLen (s : State) : Nat := min 3 (s.lLen - 3 * s.qidx)

/-- The end of a group step: count the four characters, advance, and finish on the last group (R161). -/
def State.endGroup (s : State) : State :=
  let s' := (s.countBytes 4).nextQuartet
  if s'.qidx = s'.nq then s'.finish .ok s'.wcnt 0 else s'

/-- ENCODE, its group step, taken when PHASE = ENC_GRP (R161). With no source byte left, which no run reaches, the
group transform would be given K = 0, which is "never presented" (R150): the step faults (assumption log 11). -/
def encGroupStep (s : State) : Host.Outcome State Fault Refusal :=
  if s.groupLen = 0 then .fault .emptyGroup
  else outcomeOf (do
    let g ← s.loadGroup s.qidx s.groupLen
    let s' ← s.storeDst (4 * s.qidx) (bytes32 (encGroup g.b0 g.b1 g.b2 s.groupLen))
    return s'.endGroup)

end Sys2Proof.Machine
end

