-- ==== Sys2Proof/Machine/Lut.lean ====
section
/-! DEFINITION. ENCLUT and DECLUT: the ROM reads (R117, R118). -/

namespace Sys2Proof.Machine

/-- ENCLUT: `finish(OK, 0, zext_32(ENC_ROM[L_DATA[7:0]]))` (R117). -/
def execEnclut (s : State) : Host.Outcome State Fault Refusal :=
  .next (s.finish .ok 0 ((encRom s.romAddr).setWidth 32))

/-- DECLUT: `finish(OK, 0, zext_32(DEC_ROM[L_DATA[7:0]]))` (R118). -/
def execDeclut (s : State) : Host.Outcome State Fault Refusal :=
  .next (s.finish .ok 0 ((decRom s.romAddr).setWidth 32))

end Sys2Proof.Machine
end

