-- ==== Sys2Proof/Machine/Dispatch.lean ====
section
/-! DEFINITION. The START step of each command: one arm per constructor of Instr (R232). -/

namespace Sys2Proof.Machine

def exec (i : Instr) (s : State) : Host.Outcome State Fault Refusal :=
  match i with
  | .enclut => Sys2Proof.Machine.execEnclut s
  | .declut => Sys2Proof.Machine.execDeclut s
  | .encsize => Sys2Proof.Machine.execEncsize s
  | .decsize => Sys2Proof.Machine.execDecsize s
  | .encgrp k => Sys2Proof.Machine.execEncgrp k s
  | .decquad final => Sys2Proof.Machine.execDecquad final s
  | .encode srcP dstP lenP => Sys2Proof.Machine.execEncode srcP dstP lenP s
  | .decode srcP dstP lenP => Sys2Proof.Machine.execDecode srcP dstP lenP s

end Sys2Proof.Machine
end

