-- ==== Sys2Proof/Machine/Sequencer.lean ====
section
/-! DEFINITION. One CORE step: the START dispatch (R232) and the step of each later phase (R161, R191, R192). -/

namespace Sys2Proof.Machine

/-- The START step: an illegal command word does exactly `finish(BAD_OP, 0, 0)`, a legal one runs its command
(R87, R232). -/
def startStep (s : State) : Host.Outcome State Fault Refusal :=
  match decode s.lCmd with
  | .ok i => exec i s
  | .error _ => .next (s.finish .badOp 0 0)

/-- One CORE step, which PHASE selects (R32, R194). No CORE step is enabled while PHASE = IDLE (R272). -/
def coreStep (s : State) : Host.Outcome State Fault Refusal :=
  match s.phase with
  | .idle => .next s
  | .start => startStep s
  | .encGrp => encGroupStep s
  | .decBody => decBodyStep s
  | .decFinal => decFinalStep s

end Sys2Proof.Machine
end

