-- ==== Sys2Proof/Machine/Step.lean ====
section
/-! DEFINITION. One step of the whole machine: one atomic step of one agent (R72). -/

namespace Sys2Proof.Machine

/-- One step. With the CORE idle and nothing left for the Host to do, the CORE waits for a CMD write (R262): the
state stays as it is. -/
def step (s : State) : Host.Outcome State Fault Refusal :=
  match s.nextAgent with
  | none => .next s
  | some .core => coreStep s.takeTurn
  | some .host => hostStep s.takeTurn

/-- The state in which the Host has just written the command word `w` and the CORE has accepted it (R41), with the
CORE's step next: so the next step runs that command (assumption log 5). -/
def State.withFetchWord (s : State) (nbits w : Nat) : State := (s.acceptCmd (tableWord nbits w)).coreTurn

end Sys2Proof.Machine
end

