-- ==== Sys2Proof/Safety.lean ====
section
/-! DEFINITION. The terms claims use: runs, the fault set of a run (R240), the shape and the coherence of a state
that a run reaches, and the whole-buffer transforms that ENCODE and DECODE carry out group by group. -/

namespace Sys2Proof.Safety

open Sys2Proof.Machine

/-! ### Runs -/

/-- `k` steps of the machine, stopping at the first fault. -/
def runSteps : Nat → State → Host.Outcome State Fault Refusal
  | 0, s => .next s
  | k + 1, s =>
    match step s with
    | .next t => runSteps k t
    | .fault f => .fault f
    | .refused r => .refused r

/-- The outcome with its next state, if it has one, changed by `f`. -/
def mapNext (f : State → State) : Host.Outcome State Fault Refusal → Host.Outcome State Fault Refusal
  | .next s => .next (f s)
  | .fault r => .fault r
  | .refused r => .refused r

/-- A run so far: the state reached and the faults recorded (R240). -/
structure Run where
  state : State
  faults : List Fault
  deriving DecidableEq, Repr

/-- One more step of a run. A fault is recorded in the fault set, and "the faulting step makes no other state
change" (R240). -/
def Run.advance (r : Run) : Run :=
  match step r.state with
  | .next t => ⟨t, r.faults⟩
  | .fault f => ⟨r.state, if f ∈ r.faults then r.faults else f :: r.faults⟩
  | .refused _ => r

/-- `k` more steps of a run. -/
def Run.after : Nat → Run → Run
  | 0, r => r
  | k + 1, r => Run.after k r.advance

/-- A final state: no agent has anything left to do, and no fault is recorded, for "a state with a recorded fault is
never a final state" (R240). -/
def Run.isFinal (r : Run) : Bool := r.faults.isEmpty && r.state.nextAgent.isNone

/-! ### Invariants -/

/-- The shape of a state: the buffers are canonical and hold cells of the address space only (R22, R23, R61), and
every LEN_W-bit register holds a LEN_W-bit value (R6, R20). -/
abbrev WellShaped (s : State) : Prop :=
  s.src.wf ∧ s.dst.wf ∧ (∀ c ∈ s.src, c.1 < s.lenW.cells) ∧ (∀ c ∈ s.dst, c.1 < s.lenW.cells) ∧
  s.len < s.lenW.cells ∧ s.cap < s.lenW.cells ∧ s.outLen < s.lenW.cells ∧
  s.lLen < s.lenW.cells ∧ s.lCap < s.lenW.cells ∧
  s.qidx < s.lenW.cells ∧ s.nq < s.lenW.cells ∧ s.nb < s.lenW.cells ∧ s.wcnt < s.lenW.cells

/-- The padding that the last two characters of an `n`-character source show is `p` (R190, step 3). -/
abbrev SourcePad (m : Memory) (n p : Nat) : Prop :=
  (p = 0 ∧ m.read (n - 1) ≠ none ∧ m.read (n - 1) ≠ some padChar) ∨
  (p = 1 ∧ m.read (n - 1) = some padChar ∧ m.read (n - 2) ≠ none ∧ m.read (n - 2) ≠ some padChar) ∨
  (p = 2 ∧ m.read (n - 1) = some padChar ∧ m.read (n - 2) = some padChar)

/-- What holds while an ENCODE runs its groups (R160, R161). -/
abbrev EncodeRunning (s : State) : Prop :=
  s.lCmd = 0x78 ∧ encodedSize s.lLen ≤ s.lCap ∧ s.nq = (s.lLen + 2) / 3 ∧ s.qidx < s.nq ∧ s.wcnt = 4 * s.qidx

/-- What holds while a DECODE runs its quartets (R190, R191). -/
abbrev DecodeRunning (s : State) : Prop :=
  s.lCmd = 0x79 ∧ 0 < s.lLen ∧ s.lLen % 4 = 0 ∧ SourcePad s.src s.lLen s.padc.toNat ∧
  3 * (s.lLen / 4) - s.padc.toNat ≤ s.lCap ∧ s.nq = s.lLen / 4 ∧
  s.nb = s.nq - (if 0 < s.padc.toNat then 1 else 0) ∧ s.wcnt = 3 * s.qidx

/-- The sequencer registers agree with PHASE: DONE is 0 while BUSY, and the counters of a running ENCODE or DECODE
are those its steps so far give them (R41, R160, R161, R190-R192). -/
abbrev Coherent (s : State) : Prop :=
  (s.phase ≠ .idle → s.done = false) ∧
  (s.phase = .encGrp → EncodeRunning s) ∧
  (s.phase = .decBody → DecodeRunning s ∧ s.qidx < s.nb) ∧
  (s.phase = .decFinal → DecodeRunning s ∧ 0 < s.padc.toNat ∧ s.qidx = s.nb)

/-- The invariant of the machine. -/
abbrev Inv (s : State) : Prop := WellShaped s ∧ Coherent s

/-- Every SRC cell the latched length covers holds a value (R263, duty 2). -/
abbrev Loaded (s : State) : Prop := ∀ i < s.lLen, s.src.read i ≠ none

/-- The buffer holds the bytes `bs` from index 0. -/
abbrev Holds (m : Memory) (bs : List Byte) : Prop := ∀ i < bs.length, m.read i = bs[i]?

/-! ### The whole-buffer transforms -/

/-- The characters of an ENCODE of the given bytes: each group of three through `enc_group`, the last with its 1, 2
or 3 real bytes (R161). -/
def encodeBytes : List Byte → List Byte
  | [] => []
  | [a] => bytes32 (encGroup a 0 0 1)
  | [a, b] => bytes32 (encGroup a b 0 2)
  | a :: b :: c :: rest => bytes32 (encGroup a b c 3) ++ encodeBytes rest

/-- The status and the bytes of a DECODE of the given characters, past its START step: each quartet through
`dec_quartet`, the last one as the final one, up to the first that fails (R191, R192). -/
def decodeChars : List Byte → Status × List Byte
  | c0 :: c1 :: c2 :: c3 :: rest =>
    let r := decQuartet c0 c1 c2 c3 rest.isEmpty
    if r.status = .ok then
      ((decodeChars rest).1, (bytes24 r.out).take r.nbytes ++ (decodeChars rest).2)
    else (r.status, [])
  | _ => (.ok, [])

/-- The number of quartets a DECODE of the given characters examines, the failing one among them (R272). -/
def quartetsExamined : List Byte → Nat
  | c0 :: c1 :: c2 :: c3 :: rest =>
    if (decQuartet c0 c1 c2 c3 rest.isEmpty).status = .ok then 1 + quartetsExamined rest else 1
  | _ => 0

end Sys2Proof.Safety
end

