-- ==== Sys2Proof/Certificates/Slice0/Obligations.lean ====
section
/-! DEFINITION. The statements about the model, each from the numbered rules of spec/. -/

open Sys2Proof Sys2Proof.Machine Sys2Proof.Safety

/-! ### The ROMs -/

/-- R111: ENC_ROM by its formula. The last clause, that each 6-bit field is looked up at its zero-extension (R150, R151),
an address below 64, is what the spec marks "[derived: from `42_encode.md` rule R151]" in R111 and "[derived: from the
6-bit field widths]" in R151. -/
def Obligations.EncRomFormula : Prop :=
  (∀ a : Byte,
    (a.toNat ≤ 25 → (encRom a).toNat = 0x41 + a.toNat) ∧
    (26 ≤ a.toNat → a.toNat ≤ 51 → (encRom a).toNat = 0x61 + (a.toNat - 26)) ∧
    (52 ≤ a.toNat → a.toNat ≤ 61 → (encRom a).toNat = 0x30 + (a.toNat - 52)) ∧
    (a.toNat = 62 → encRom a = 0x2B) ∧ (a.toNat = 63 → encRom a = 0x2F) ∧
    (64 ≤ a.toNat → encRom a = 0x00)) ∧
  encRomWords.length = 256 ∧
  ∀ v : BitVec 6, encField v = encRom (v.setWidth 8) ∧ (v.setWidth 8 : Byte).toNat < 64

/-- R114 and R113: DEC_ROM holds the index of each symbol, 0x40 at `=` and 0x80 elsewhere: 64, 1 and 191 words. -/
def Obligations.DecRomContents : Prop :=
  (∀ i : BitVec 6, decRom (encField i) = i.setWidth 8) ∧
  decRom 0x3D = 0x40 ∧
  (∀ x : Byte, x ≠ 0x3D → (∀ i : BitVec 6, x ≠ encField i) → decRom x = 0x80) ∧
  decRomWords.length = 256 ∧
  (decRomWords.filter (fun w => w.extractLsb' 6 2 == 0)).length = 64 ∧
  (decRomWords.filter (fun w => w == 0x40)).length = 1 ∧
  (decRomWords.filter (fun w => w == 0x80)).length = 191

/-- R116: `legal`, `is_pad` and `val`. -/
def Obligations.LegalPadVal : Prop :=
  ∀ x : Byte,
    (legal x = true ↔ ∃ i : BitVec 6, x = encField i) ∧
    (legal x = true ↔ (decRom x).extractLsb' 6 2 = 0b00) ∧
    (isPad x = true ↔ x = 0x3D) ∧ (isPad x = true ↔ (decRom x).getLsbD 6 = true) ∧
    val x = (decRom x).extractLsb' 0 6 ∧ (legal x = false → val x = 0) ∧ legal 0x3D = false

/-- The two ROMs are inverse on the alphabet: the law of R119, which the spec marks "[derived: from rule R111 and rule
R114]". -/
def Obligations.RomsInverse : Prop :=
  (∀ v : BitVec 6, decRom (encRom (v.setWidth 8)) = v.setWidth 8 ∧ legal (encRom (v.setWidth 8)) = true) ∧
  ∀ x : Byte, legal x = true → encRom ((val x).setWidth 8) = x

/-! ### The size functions -/

/-- R131: the encoded size, exact in LEN_W+1 bits for every LEN_W-bit length, of every build. The bound below
2^(LEN_W+1) is what R131 marks "[derived: from `00_scope.md` rule R6]". -/
def Obligations.EncodedSizeExact : Prop :=
  (∀ n, encodedSize n = 4 * ((n + 2) / 3)) ∧ encodedSize 0 = 0 ∧
  (∀ n, n ≤ encodedSize n / 4 * 3 ∧ encodedSize n / 4 * 3 ≤ n + 2) ∧
  ∀ (w : LenW) (n : Nat), n < w.cells → encodedSize n < 2 ^ (w.bits + 1)

/-- R132: the maximum decoded size and `len_err`, also as the hardware reads them off the bits of n. That the value
fits LEN_W bits (the width of the port `dec_size` in R130) is what R132 marks "[derived: from `00_scope.md` rule
R6]". -/
def Obligations.MaxDecodedSizeCases : Prop :=
  (∀ n, n % 4 = 0 → maxDecodedSize n = n / 4 * 3 ∧ lenErr n = false) ∧
  (∀ n, n % 4 ≠ 0 → maxDecodedSize n = 0 ∧ lenErr n = true) ∧
  ∀ (w : LenW) (v : BitVec w.bits),
    maxDecodedSize v.toNat < w.cells ∧ lenErr v.toNat = (v.extractLsb' 0 2 != 0) ∧
    (lenErr v.toNat = false → maxDecodedSize v.toNat = (v.extractLsb' 2 (w.bits - 2)).toNat * 3)

/-- The laws of the size functions: R135, which the spec marks "[derived: from rule R131 and rule R132]". -/
def Obligations.SizeLaws : Prop :=
  (∀ m n, m ≤ n → encodedSize m ≤ encodedSize n) ∧
  (∀ n, encodedSize n % 4 = 0) ∧
  (encodedSize 0 = 0 ∧ encodedSize 1 = 4 ∧ encodedSize 2 = 4 ∧ encodedSize 3 = 4 ∧ encodedSize 4 = 8) ∧
  (lenErr 3 = true ∧ maxDecodedSize 4 = 3 ∧ maxDecodedSize 160 = 120) ∧
  ∀ n, maxDecodedSize (encodedSize n) = 3 * ((n + 2) / 3) ∧ n ≤ maxDecodedSize (encodedSize n) ∧
    maxDecodedSize (encodedSize n) ≤ n + 2 ∧ lenErr (encodedSize n) = false

/-! ### Command words -/

/-- R88: the command words of the Host program notation decode to the commands they stand for. -/
def Obligations.NotationWordsDecode : Prop :=
  decode 0x00000001 = .ok .enclut ∧ decode 0x00000002 = .ok .declut ∧
  decode 0x00000003 = .ok .encsize ∧ decode 0x00000004 = .ok .decsize ∧
  decode 0x00000105 = .ok (.encgrp 1) ∧ decode 0x00000205 = .ok (.encgrp 2) ∧ decode 0x00000305 = .ok (.encgrp 3) ∧
  decode 0x00000006 = .ok (.decquad false) ∧ decode 0x00000106 = .ok (.decquad true) ∧
  decode 0x00000078 = .ok (.encode true true true) ∧ decode 0x00000079 = .ok (.decode true true true) ∧
  decode 0x00000068 = .ok (.encode false true true) ∧ decode 0x00000058 = .ok (.encode true false true) ∧
  decode 0x00000039 = .ok (.decode true true false)

/-- R80, R81, R82, R84: the decoder reads back every operand of every well-formed command. -/
def Obligations.DecodeEncodeAgree : Prop :=
  ∀ i : Instr, i.wellFormed = true → decode (encode i) = .ok i

/-- R86: the condition under which a command word is legal; and the legal words are exactly those that decode, that is,
that spell a command of R81 for R232's START step to run. The second clause is about the model's decoder, and R86,
R81 and R232 together give it. -/
def Obligations.DecodesIffLegal : Prop :=
  ∀ w : Word,
    (legalCmd w = true ↔
      w.extractLsb' 10 22 = 0 ∧ w.getLsbD 7 = false ∧
      ((((w.extractLsb' 0 4).toNat = 0x1 ∨ (w.extractLsb' 0 4).toNat = 0x2 ∨
          (w.extractLsb' 0 4).toNat = 0x3 ∨ (w.extractLsb' 0 4).toNat = 0x4) ∧ w.extractLsb' 4 6 = 0) ∨
       ((w.extractLsb' 0 4).toNat = 0x5 ∧ w.extractLsb' 4 3 = 0 ∧ w.extractLsb' 8 2 ≠ 0b00) ∨
       ((w.extractLsb' 0 4).toNat = 0x6 ∧ w.extractLsb' 4 3 = 0 ∧ w.getLsbD 9 = false) ∨
       (((w.extractLsb' 0 4).toNat = 0x8 ∨ (w.extractLsb' 0 4).toNat = 0x9) ∧ w.extractLsb' 8 2 = 0))) ∧
    (legalCmd w = true ↔ ∃ i, decode w = .ok i)

/-- The other direction of the round trip: a word that decodes is the one encoding of a well-formed command, so no
two words spell one command and no bit of a legal word is dropped (R80, R81). -/
def Obligations.DecodedWordIsEncoding : Prop :=
  ∀ (w : Word) (i : Instr), decode w = .ok i → i.wellFormed = true ∧ encode i = w

/-- R87: the reserved space is illegal, and the START step of an illegal word does exactly `finish(BAD_OP, 0, 0)`. -/
def Obligations.ReservedWordsEndInBadOp : Prop :=
  (∀ w : Word,
    ((w.extractLsb' 0 4).toNat = 0x0 ∨ (w.extractLsb' 0 4).toNat = 0x7 ∨ 0xA ≤ (w.extractLsb' 0 4).toNat ∨
      w.extractLsb' 10 22 ≠ 0 ∨ w.getLsbD 7 = true ∨
      ((w.extractLsb' 0 4).toNat < 0x8 ∧ w.extractLsb' 4 3 ≠ 0) ∨
      ((w.extractLsb' 0 4).toNat = 0x5 ∧ w.extractLsb' 8 2 = 0) ∨
      ((w.extractLsb' 0 4).toNat = 0x6 ∧ w.getLsbD 9 = true) ∨
      ((w.extractLsb' 0 4).toNat ≠ 0x5 ∧ (w.extractLsb' 0 4).toNat ≠ 0x6 ∧ w.extractLsb' 8 2 ≠ 0)) →
    legalCmd w = false) ∧
  ∀ s : State, legalCmd s.lCmd = false →
    startStep s = .next { s with status := .badOp, outLen := 0, result := 0, done := true, phase := .idle }

/-! ### The step and the Host's command -/

/-- R232, R72: where the CORE moves next in PHASE START and L_CMD spells a command, the step is exec of it. What the
step adds is that the choice of the CORE, where the Host could have moved too, is taken out of `turns` (the model's
own field, assumption log 6). -/
def Obligations.StepRunsDecodedCommand : Prop :=
  ∀ (s : State) (i : Instr), s.phase = .start → decode s.lCmd = .ok i → s.nextAgent = some .core →
    step s = exec i { s with turns := if s.program = [] then s.turns else s.turns.tail }

/-- A table word placed by withFetchWord is what the next step runs, from every state. withFetchWord is the model's
choice (assumption log 5, DESIGN CHOICE): it stands for an accepted CMD write and latches the command as R41 says,
but where the CORE is busy it replaces the running command, a write that R41 ignores. -/
def Obligations.StepRunsPlacedWord : Prop :=
  ∀ (s : State) (nbits w : Nat) (i : Instr), decodeTableWord nbits w = some i →
    step (s.withFetchWord nbits w) =
      exec i { s with
        cmd := tableWord nbits w, lCmd := tableWord nbits w, lLen := s.len, lCap := s.cap, lData := s.data,
        done := false, phase := .start }

/-- R41: a CMD write is accepted while PHASE = IDLE and ignored otherwise. -/
def Obligations.CmdWriteAcceptedOrIgnored : Prop :=
  ∀ (s : State) (w : Word),
    (s.phase = .idle → s.writeReg 0x00 w =
      { s with
        cmd := w, lCmd := w, lLen := s.len, lCap := s.cap, lData := s.data, done := false, phase := .start }) ∧
    (s.phase ≠ .idle → s.writeReg 0x00 w = s)

/-! ### The results of the commands -/

/-- R117: ENCLUT ends OK with the word of ENC_ROM that L_DATA[7:0] addresses. -/
def Obligations.EnclutResult : Prop :=
  decode 0x00000001 = .ok .enclut ∧
  ∀ s : State,
    exec .enclut s = .next { s with
      status := .ok, outLen := 0, result := (encRom (s.lData.extractLsb' 0 8)).setWidth 32,
      done := true, phase := .idle } ∧
    (64 ≤ (s.lData.extractLsb' 0 8).toNat → (encRom (s.lData.extractLsb' 0 8)).setWidth 32 = (0 : Word))

/-- R118: DECLUT ends OK with the word of DEC_ROM that L_DATA[7:0] addresses. -/
def Obligations.DeclutResult : Prop :=
  decode 0x00000002 = .ok .declut ∧ decRom 0x3D = 0x40 ∧ decRom 0x41 = 0x00 ∧ decRom 0x00 = 0x80 ∧
  ∀ s : State,
    exec .declut s = .next { s with
      status := .ok, outLen := 0, result := (decRom (s.lData.extractLsb' 0 8)).setWidth 32,
      done := true, phase := .idle }

/-- R133: ENCSIZE ends OK with the encoded size of L_LEN, whole in RESULT for every LEN_W-bit length. -/
def Obligations.EncsizeResult : Prop :=
  decode 0x00000003 = .ok .encsize ∧
  ∀ s : State,
    exec .encsize s = .next { s with
      status := .ok, outLen := 0, result := BitVec.ofNat 32 (encodedSize s.lLen), done := true, phase := .idle } ∧
    (s.lLen = 0 → (BitVec.ofNat 32 (encodedSize s.lLen)).toNat = 0) ∧
    (s.lLen < s.lenW.cells →
      (BitVec.ofNat 32 (encodedSize s.lLen)).toNat = encodedSize s.lLen ∧
      encodedSize s.lLen < 2 ^ (s.lenW.bits + 1))

/-- R134: DECSIZE ends in LENGTH for a length that is no multiple of 4, else OK with the size. -/
def Obligations.DecsizeResult : Prop :=
  decode 0x00000004 = .ok .decsize ∧
  ∀ s : State,
    (s.lLen % 4 ≠ 0 → exec .decsize s = .next { s with
      status := .length, outLen := 0, result := 0, done := true, phase := .idle }) ∧
    (s.lLen % 4 = 0 → exec .decsize s = .next { s with
      status := .ok, outLen := 0, result := BitVec.ofNat 32 (s.lLen / 4 * 3), done := true, phase := .idle })

/-- R151: the group transform, field by field, its padding, and what it depends on. -/
def Obligations.GroupTransform : Prop :=
  ∀ b0 b1 b2 : Byte,
    encGroup b0 b1 b2 3 =
      encField ((b0 ++ b1 ++ b2).extractLsb' 18 6) ++ encField ((b0 ++ b1 ++ b2).extractLsb' 12 6) ++
      encField ((b0 ++ b1 ++ b2).extractLsb' 6 6) ++ encField ((b0 ++ b1 ++ b2).extractLsb' 0 6) ∧
    encGroup b0 b1 b2 2 =
      encField ((b0 ++ b1 ++ 0#8).extractLsb' 18 6) ++ encField ((b0 ++ b1 ++ 0#8).extractLsb' 12 6) ++
      encField ((b0 ++ b1 ++ 0#8).extractLsb' 6 6) ++ 0x3D#8 ∧
    encGroup b0 b1 b2 1 =
      encField ((b0 ++ 0#8 ++ 0#8).extractLsb' 18 6) ++ encField ((b0 ++ 0#8 ++ 0#8).extractLsb' 12 6) ++
      0x3D#8 ++ 0x3D#8 ∧
    (∀ b1' b2' : Byte, encGroup b0 b1 b2 1 = encGroup b0 b1' b2' 1 ∧ encGroup b0 b1 b2 2 = encGroup b0 b1 b2' 2)

/-- R152: ENCGRP ends OK with the four characters for K = 1, 2, 3; with K = 0, which no legal word spells, it ends in
BAD_OP. -/
def Obligations.EncgrpResult : Prop :=
  decode 0x00000105 = .ok (.encgrp 1) ∧ decode 0x00000205 = .ok (.encgrp 2) ∧ decode 0x00000305 = .ok (.encgrp 3) ∧
  ∀ (k : BitVec 2) (s : State),
    (k ≠ 0 → exec (.encgrp k) s = .next { s with
      status := .ok, outLen := 4,
      result := encGroup (s.lData.extractLsb' 16 8) (s.lData.extractLsb' 8 8) (s.lData.extractLsb' 0 8) k.toNat,
      done := true, phase := .idle }) ∧
    (k = 0 → exec (.encgrp k) s = .next { s with
      status := .badOp, outLen := 0, result := 0, done := true, phase := .idle })

/-- R181: the quartet transform, by its padding: 0, 1 or 2 trailing `=`. -/
def Obligations.QuartetTransform : Prop :=
  ∀ (c0 c1 c2 c3 : Byte) (final : Bool),
    let v : BitVec 24 := val c0 ++ val c1 ++ val c2 ++ val c3
    ((final = false ∨ c3 ≠ 0x3D) →
      decQuartet c0 c1 c2 c3 final =
        if legal c0 ∧ legal c1 ∧ legal c2 ∧ legal c3 then ⟨.ok, 3, v⟩ else ⟨.invBody, 0, 0⟩) ∧
    (final = true → c3 = 0x3D → c2 ≠ 0x3D →
      decQuartet c0 c1 c2 c3 final =
        if legal c0 ∧ legal c1 ∧ legal c2 then ⟨.ok, 2, v.extractLsb' 8 16 ++ 0#8⟩ else ⟨.invFinal, 0, 0⟩) ∧
    (final = true → c3 = 0x3D → c2 = 0x3D →
      decQuartet c0 c1 c2 c3 final =
        if legal c0 ∧ legal c1 then ⟨.ok, 1, v.extractLsb' 16 8 ++ 0#16⟩ else ⟨.invFinal, 0, 0⟩)

/-- R182: DECQUAD ends with the status, the byte count and the bytes of the quartet transform of L_DATA. -/
def Obligations.DecquadResult : Prop :=
  decode 0x00000006 = .ok (.decquad false) ∧ decode 0x00000106 = .ok (.decquad true) ∧
  ∀ (final : Bool) (s : State),
    let r := decQuartet (s.lData.extractLsb' 24 8) (s.lData.extractLsb' 16 8) (s.lData.extractLsb' 8 8)
      (s.lData.extractLsb' 0 8) final
    exec (.decquad final) s = .next { s with
      status := r.status, outLen := r.nbytes, result := 0#8 ++ r.out, done := true, phase := .idle } ∧
    (r.status ≠ .ok → r.nbytes = 0 ∧ r.out = 0) ∧ (r.status = .ok ∨ r.status = .invBody ∨ r.status = .invFinal)

/-- R151, R181: the quartet transform undoes the group transform, with the padding of the group read as padding. -/
def Obligations.QuartetUndoesGroup : Prop :=
  ∀ b0 b1 b2 : Byte,
    let q := fun (k : Nat) (final : Bool) =>
      decQuartet ((encGroup b0 b1 b2 k).extractLsb' 24 8) ((encGroup b0 b1 b2 k).extractLsb' 16 8)
        ((encGroup b0 b1 b2 k).extractLsb' 8 8) ((encGroup b0 b1 b2 k).extractLsb' 0 8) final
    (∀ final, q 3 final = ⟨.ok, 3, b0 ++ b1 ++ b2⟩) ∧
    q 2 true = ⟨.ok, 2, b0 ++ b1 ++ 0#8⟩ ∧ q 1 true = ⟨.ok, 1, b0 ++ 0#16⟩ ∧
    (q 2 false).status = .invBody ∧ (q 1 false).status = .invBody

/-- R160: the START step of ENCODE: PARAM, then CAPACITY, then the empty source, then the setup. -/
def Obligations.EncodeStart : Prop :=
  ∀ (srcP dstP lenP : Bool) (s : State),
    ((srcP = false ∨ dstP = false ∨ lenP = false) → exec (.encode srcP dstP lenP) s = .next { s with
      status := .param, outLen := 0, result := 0, done := true, phase := .idle }) ∧
    (srcP = true → dstP = true → lenP = true →
      (s.lCap < encodedSize s.lLen → exec (.encode srcP dstP lenP) s = .next { s with
        status := .capacity, outLen := 0, result := 0, done := true, phase := .idle }) ∧
      (s.lLen = 0 → exec (.encode srcP dstP lenP) s = .next { s with
        status := .ok, outLen := 0, result := 0, done := true, phase := .idle }) ∧
      (encodedSize s.lLen ≤ s.lCap → 0 < s.lLen → s.lLen < s.lenW.cells →
        exec (.encode srcP dstP lenP) s = .next { s with
          nq := (s.lLen + 2) / 3, qidx := 0, wcnt := 0, phase := .encGrp }))

/-- R190: the START step of DECODE: PARAM, then LENGTH, then, with the padding the last two characters show,
CAPACITY, then the setup. Whether PADC is written when CAPACITY ends the command is left open here (the model's
choice, assumption log 12). -/
def Obligations.DecodeStart : Prop :=
  ∀ (srcP dstP lenP : Bool) (s : State),
    ((srcP = false ∨ dstP = false ∨ lenP = false ∨ s.lLen = 0 ∨ s.lCap = 0) →
      exec (.decode srcP dstP lenP) s = .next { s with
        status := .param, outLen := 0, result := 0, done := true, phase := .idle }) ∧
    (srcP = true → dstP = true → lenP = true → 0 < s.lLen → 0 < s.lCap →
      (s.lLen % 4 ≠ 0 → exec (.decode srcP dstP lenP) s = .next { s with
        status := .length, outLen := 0, result := 0, done := true, phase := .idle }) ∧
      ∀ p : BitVec 2, s.lLen % 4 = 0 → s.lLen < s.lenW.cells → SourcePad s.src s.lLen p.toNat →
        (s.lCap < s.lLen / 4 * 3 - p.toNat → ∃ q, exec (.decode srcP dstP lenP) s = .next { s with
          padc := q, status := .capacity, outLen := 0, result := 0, done := true, phase := .idle }) ∧
        (s.lLen / 4 * 3 - p.toNat ≤ s.lCap → exec (.decode srcP dstP lenP) s = .next { s with
          padc := p, nq := s.lLen / 4, nb := s.lLen / 4 - (if 0 < p.toNat then 1 else 0), qidx := 0, wcnt := 0,
          phase := if 0 < s.lLen / 4 - (if 0 < p.toNat then 1 else 0) then .decBody else .decFinal }))

/-- R161: a group step of a running ENCODE reads its 1 to 3 bytes, writes its four characters, counts them, and
finishes OK after the last group. -/
def Obligations.EncodeGroupStep : Prop :=
  ∀ (s : State) (b0 b1 b2 : Byte), Inv s → s.phase = .encGrp →
    s.src.read (3 * s.qidx) = some b0 →
    (if 2 ≤ s.lLen - 3 * s.qidx then s.src.read (3 * s.qidx + 1) = some b1 else b1 = 0) →
    (if 3 ≤ s.lLen - 3 * s.qidx then s.src.read (3 * s.qidx + 2) = some b2 else b2 = 0) →
    coreStep s = .next (
      let t := { s with
        dst := s.dst.writeList (4 * s.qidx) (bytes32 (encGroup b0 b1 b2 (min 3 (s.lLen - 3 * s.qidx)))),
        wcnt := s.wcnt + 4, qidx := s.qidx + 1 }
      if s.qidx + 1 = s.nq then
        { t with status := .ok, outLen := encodedSize s.lLen, result := 0, done := true, phase := .idle }
      else t)

/-- R191: a body step of a running DECODE: three bytes written where all four characters are legal, else
`finish(INV_BODY, WCNT, 0)` with nothing written. That WCNT is 3 × QIDX there the spec marks "[derived: WCNT = 3 × QIDX in
DEC_BODY]". -/
def Obligations.DecodeBodyStep : Prop :=
  ∀ (s : State) (c0 c1 c2 c3 : Byte), Inv s → s.phase = .decBody →
    s.src.read (4 * s.qidx) = some c0 → s.src.read (4 * s.qidx + 1) = some c1 →
    s.src.read (4 * s.qidx + 2) = some c2 → s.src.read (4 * s.qidx + 3) = some c3 →
    (¬ (legal c0 ∧ legal c1 ∧ legal c2 ∧ legal c3) → coreStep s = .next { s with
      status := .invBody, outLen := 3 * s.qidx, result := 0, done := true, phase := .idle }) ∧
    (legal c0 ∧ legal c1 ∧ legal c2 ∧ legal c3 → coreStep s = .next (
      let t := { s with
        dst := s.dst.writeList (3 * s.qidx) (bytes24 (val c0 ++ val c1 ++ val c2 ++ val c3)),
        wcnt := s.wcnt + 3, qidx := s.qidx + 1 }
      if s.qidx + 1 = s.nb then
        if s.padc = 0 then
          { t with status := .ok, outLen := s.wcnt + 3, result := 0, done := true, phase := .idle }
        else { t with phase := .decFinal }
      else t))

/-- R192, R193: the final step of a running DECODE: 3 - PADC bytes written and the total reported, or
`finish(INV_FINAL, WCNT, 0)` with nothing written and the body bytes kept. That the quartet's byte count is 3 - PADC R192
marks "[derived: from rule R190 and rule R181]". -/
def Obligations.DecodeFinalStep : Prop :=
  ∀ (s : State) (c0 c1 c2 c3 : Byte), Inv s → s.phase = .decFinal →
    s.src.read (4 * s.qidx) = some c0 → s.src.read (4 * s.qidx + 1) = some c1 →
    s.src.read (4 * s.qidx + 2) = some c2 → s.src.read (4 * s.qidx + 3) = some c3 →
    (¬ (legal c0 ∧ legal c1 ∧ (s.padc = 1 → legal c2)) → coreStep s = .next { s with
      status := .invFinal, outLen := 3 * s.nb, result := 0, done := true, phase := .idle }) ∧
    (legal c0 ∧ legal c1 ∧ (s.padc = 1 → legal c2) → coreStep s = .next { s with
      dst := s.dst.writeList (3 * s.qidx)
        ((bytes24 (val c0 ++ val c1 ++ val c2 ++ val c3)).take (3 - s.padc.toNat)),
      wcnt := s.wcnt + (3 - s.padc.toNat), status := .ok, outLen := s.wcnt + (3 - s.padc.toNat), result := 0,
      done := true, phase := .idle })

/-! ### Frames -/

/-- R36, R64: what the START step of every command leaves unchanged: LEN_W, both buffers byte for byte, the Host's
registers, the latches and the Host agent; and for the six commands other than ENCODE and DECODE the sequencer
registers too. -/
def Obligations.CommandFrame : Prop :=
  ∀ (i : Instr) (s t : State), exec i s = .next t →
    t.lenW = s.lenW ∧ (∀ a, t.src.read a = s.src.read a) ∧ (∀ a, t.dst.read a = s.dst.read a) ∧
    t.cmd = s.cmd ∧ t.len = s.len ∧ t.cap = s.cap ∧ t.data = s.data ∧
    t.lCmd = s.lCmd ∧ t.lLen = s.lLen ∧ t.lCap = s.lCap ∧ t.lData = s.lData ∧
    t.program = s.program ∧ t.turns = s.turns ∧ t.reads = s.reads ∧
    ((∀ x y z, i ≠ .encode x y z) → (∀ x y z, i ≠ .decode x y z) →
      t.qidx = s.qidx ∧ t.nq = s.nq ∧ t.nb = s.nb ∧ t.padc = s.padc ∧ t.wcnt = s.wcnt) ∧
    ((∀ x y z, i ≠ .decode x y z) → t.nb = s.nb ∧ t.padc = s.padc)

/-- R64, R161, R191, R192: what a CORE step of a running ENCODE or DECODE leaves unchanged: every SRC byte, every DST
byte outside the step's group or quartet, the Host's registers, the latches, NQ, NB and PADC. -/
def Obligations.SequencerFrame : Prop :=
  ∀ s t : State, coreStep s = .next t → s.phase ≠ .start →
    t.lenW = s.lenW ∧ (∀ a, t.src.read a = s.src.read a) ∧
    (∀ a, ¬ (s.phase = .encGrp ∧ 4 * s.qidx ≤ a ∧ a < 4 * s.qidx + 4) →
      ¬ (s.phase = .decBody ∧ 3 * s.qidx ≤ a ∧ a < 3 * s.qidx + 3) →
      ¬ (s.phase = .decFinal ∧ 3 * s.qidx ≤ a ∧ a < 3 * s.qidx + 2) → t.dst.read a = s.dst.read a) ∧
    t.cmd = s.cmd ∧ t.len = s.len ∧ t.cap = s.cap ∧ t.data = s.data ∧
    t.lCmd = s.lCmd ∧ t.lLen = s.lLen ∧ t.lCap = s.lCap ∧ t.lData = s.lData ∧
    t.nq = s.nq ∧ t.nb = s.nb ∧ t.padc = s.padc ∧
    t.program = s.program ∧ t.turns = s.turns ∧ t.reads = s.reads

/-- R42, which the spec marks "[derived: from rule R33 and rule R41]": a write of LEN, CAP or DATA while
BUSY updates that register and nothing else, and the running operation does not depend on it: the write and the CORE's next step give the same state in either order. -/
def Obligations.OperandWriteWhileBusy : Prop :=
  ∀ (s : State) (v : Word), s.phase ≠ .idle →
    s.writeReg 0x04 v = { s with len := v.toNat % 2 ^ s.lenW.bits } ∧
    s.writeReg 0x08 v = { s with cap := v.toNat % 2 ^ s.lenW.bits } ∧
    s.writeReg 0x0C v = { s with data := v } ∧
    ∀ off, off = 0x04 ∨ off = 0x08 ∨ off = 0x0C →
      coreStep (s.writeReg off v) = mapNext (fun t => t.writeReg off v) (coreStep s)

/-- R23: "The CORE only writes DST. It never reads it": what DST holds decides neither whether a CORE step goes on nor
any register it leaves. -/
def Obligations.CoreNeverReadsDst : Prop :=
  ∀ (s : State) (m : Memory),
    mapNext (fun t => { t with dst := [] }) (coreStep { s with dst := m }) =
      mapNext (fun t => { t with dst := [] }) (coreStep s)

/-- R64: a running operation reads only SRC[0 .. L_LEN-1]: cells beyond change nothing. -/
def Obligations.CoreReadsOnlyLatchedLength : Prop :=
  ∀ (s : State) (m : Memory), Inv s → (∀ i < s.lLen, m.read i = s.src.read i) →
    coreStep { s with src := m } = mapNext (fun t => { t with src := m }) (coreStep s)

/-! ### The Host's registers and buffers -/

/-- R24, R26, R27: what the Host reads at each offset; and LEN and CAP keep `wdata[LEN_W-1:0]` of a write, which a read
returns zero-extended. -/
def Obligations.RegisterMap : Prop :=
  ∀ s : State,
    s.readReg 0x00 = s.cmd ∧ s.readReg 0x04 = BitVec.ofNat 32 s.len ∧ s.readReg 0x08 = BitVec.ofNat 32 s.cap ∧
    s.readReg 0x0C = s.data ∧ s.readReg 0x10 = s.stat ∧ s.readReg 0x14 = BitVec.ofNat 32 s.outLen ∧
    s.readReg 0x18 = s.result ∧
    (∀ off, off ≠ 0x00 → off ≠ 0x04 → off ≠ 0x08 → off ≠ 0x0C → off ≠ 0x10 → off ≠ 0x14 → off ≠ 0x18 →
      s.readReg off = 0x00000000) ∧
    ∀ v : Word,
      s.writeReg 0x04 v = { s with len := v.toNat % 2 ^ s.lenW.bits } ∧
      (s.writeReg 0x04 v).readReg 0x04 = (v.setWidth s.lenW.bits).setWidth 32 ∧
      s.writeReg 0x08 v = { s with cap := v.toNat % 2 ^ s.lenW.bits } ∧
      (s.writeReg 0x08 v).readReg 0x08 = (v.setWidth s.lenW.bits).setWidth 32

/-- R39: a write to STAT, OUT_LEN, RESULT or an unmapped offset is ignored; DATA keeps all 32 bits (R28). -/
def Obligations.ReadOnlyWritesIgnored : Prop :=
  ∀ (s : State) (v : Word),
    (∀ off, off ≠ 0x00 → off ≠ 0x04 → off ≠ 0x08 → off ≠ 0x0C → hostAct (.writeReg off v) s = .ok s) ∧
    (∀ off, hostAct (.readReg off) s = .ok { s with reads := .reg off (s.readReg off) :: s.reads }) ∧
    s.writeReg 0x0C v = { s with data := v } ∧ (s.writeReg 0x0C v).readReg 0x0C = v

/-- R29, R35, R85: the bits of STAT. -/
def Obligations.StatBits : Prop :=
  ∀ s : State,
    (s.stat.getLsbD 0 = true ↔ s.phase ≠ .idle) ∧ s.stat.getLsbD 1 = s.done ∧ s.stat.extractLsb' 2 2 = 0 ∧
    s.stat.extractLsb' 4 3 = s.status.code ∧ s.stat.extractLsb' 7 25 = 0 ∧
    (Status.code .ok = 0 ∧ Status.code .param = 1 ∧ Status.code .capacity = 2 ∧ Status.code .length = 3 ∧
      Status.code .invBody = 4 ∧ Status.code .invFinal = 5 ∧ Status.code .badOp = 6)

/-- R62: the Host's accesses to a cell of either buffer: reads at any time, writes while idle, a model fault for a
write while BUSY. -/
def Obligations.HostBufferAccess : Prop :=
  ∀ (s : State) (i : Nat) (b : Byte), i < s.lenW.cells →
    hostAct (.readSrc i) s = .ok { s with reads := .src i (s.src.read i) :: s.reads } ∧
    hostAct (.readDst i) s = .ok { s with reads := .dst i (s.dst.read i) :: s.reads } ∧
    (s.phase ≠ .idle → hostAct (.writeSrc i b) s = .error .srcWriteBusy ∧
      hostAct (.writeDst i b) s = .error .dstWriteBusy) ∧
    (s.phase = .idle → ∃ m n : Memory,
      hostAct (.writeSrc i b) s = .ok { s with src := m } ∧ hostAct (.writeDst i b) s = .ok { s with dst := n } ∧
      m.read i = some b ∧ (∀ j, j ≠ i → m.read j = s.src.read j) ∧
      n.read i = some b ∧ (∀ j, j ≠ i → n.read j = s.dst.read j))

/-- R239, R267: a step in which the Host writes a buffer while BUSY is F_SRC_WRITE_BUSY or F_DST_WRITE_BUSY. The Host's
program and whose turn it is are the model's own fields (assumption logs 5 and 6). -/
def Obligations.BusyBufferWriteFaults : Prop :=
  ∀ (s : State) (i : Nat) (b : Byte) (rest : List HostOp), s.phase ≠ .idle → s.nextAgent = some .host →
    (s.program = .writeSrc i b :: rest → step s = .fault .srcWriteBusy) ∧
    (s.program = .writeDst i b :: rest → step s = .fault .dstWriteBusy)

/-- WAIT repeats `RD STAT` until DONE = 1 (R89). That one poll is one Host step that logs its read is the model's
reading (assumption log 19, DEDUCED); the Host's program and reads and whose turn it is are the model's own fields
(assumption logs 5 and 6, DESIGN CHOICE). -/
def Obligations.WaitPollsUntilDone : Prop :=
  ∀ (s : State) (rest : List HostOp), s.program = .wait :: rest → s.phase = .idle ∨ s.turns.head? = some .host →
    ∃ ts, step s = .next { s with
      reads := .reg 0x10 s.stat :: s.reads,
      program := if s.stat.getLsbD 1 then rest else .wait :: rest,
      turns := ts }

/-- R272, R262: an idle CORE with nothing left for the Host waits; a busy CORE moves whenever the Host has nothing
to do or the interleaving (the model's own field `turns`, assumption log 6) says nothing more. -/
def Obligations.BusyCoreIsEnabled : Prop :=
  ∀ s : State,
    (s.phase = .idle → s.program = [] → step s = .next s) ∧
    (s.phase ≠ .idle → s.program = [] ∨ s.turns = [] → step s = coreStep s)

/-! ### Reset -/

/-- R40, R260: the power-on state of every build, and a reset while powered, which keeps SRC and DST. -/
def Obligations.ResetValues : Prop :=
  (∀ w : LenW, (State.powerOn w).cmd = 0 ∧ (State.powerOn w).len = 0 ∧ (State.powerOn w).cap = 0 ∧
    (State.powerOn w).data = 0 ∧ (State.powerOn w).phase = .idle ∧ (State.powerOn w).done = false ∧
    (State.powerOn w).status = .ok ∧ (State.powerOn w).outLen = 0 ∧ (State.powerOn w).result = 0 ∧
    (∀ i, (State.powerOn w).src.read i = none) ∧ (∀ i, (State.powerOn w).dst.read i = none)) ∧
  State.reset = State.powerOn Config.lenW ∧
  ∀ s : State, ∃ t, hostAct .reset s = .ok t ∧
    t.cmd = 0 ∧ t.len = 0 ∧ t.cap = 0 ∧ t.data = 0 ∧ t.phase = .idle ∧ t.stat.getLsbD 0 = false ∧ t.done = false ∧
    t.status = .ok ∧ t.outLen = 0 ∧ t.result = 0 ∧ t.src = s.src ∧ t.dst = s.dst

/-- R261: a reset while BUSY abandons the operation: no `finish`, DONE = 0, STATUS = OK, DST kept. The Host's program and
whose turn it is are the model's own fields (assumption logs 5 and 6). -/
def Obligations.ResetAbandonsOperation : Prop :=
  ∀ (s : State) (rest : List HostOp), s.phase ≠ .idle → s.program = .reset :: rest → s.nextAgent = some .host →
    ∃ t, step s = .next t ∧ t.phase = .idle ∧ t.done = false ∧ t.status = .ok ∧ t.outLen = 0 ∧ t.result = 0 ∧
      t.program = rest ∧ ∀ a, t.dst.read a = s.dst.read a

/-- Every build's power-on state meets the invariant (R40). The latches and sequencer registers, which R40 leaves
unspecified, hold the model's own 0 there (assumption log 3). -/
def Obligations.PowerOnMeetsInvariant : Prop :=
  (∀ w : LenW, Inv (State.powerOn w)) ∧ Inv State.reset

/-! ### Faults -/

/-- R65: a CORE step that reads an SRC cell that holds no value is F_SRC_UNWRITTEN: in DECODE's START step, in a
group step and in a quartet step. -/
def Obligations.UnwrittenSourceFaults : Prop :=
  ∀ s : State, Inv s →
    (s.phase = .start → s.lCmd = 0x79 → 0 < s.lLen → s.lLen % 4 = 0 → 0 < s.lCap →
      (s.src.read (s.lLen - 1) = none ∨
        (s.src.read (s.lLen - 1) = some 0x3D ∧ s.src.read (s.lLen - 2) = none)) →
      coreStep s = .fault .srcUnwritten) ∧
    (s.phase = .encGrp → (∃ i, 3 * s.qidx ≤ i ∧ i < 3 * s.qidx + 3 ∧ i < s.lLen ∧ s.src.read i = none) →
      coreStep s = .fault .srcUnwritten) ∧
    (s.phase = .decBody ∨ s.phase = .decFinal →
      (∃ i, 4 * s.qidx ≤ i ∧ i < 4 * s.qidx + 4 ∧ s.src.read i = none) → coreStep s = .fault .srcUnwritten)

/-- R65, R64, R239: in a state that meets the invariant an unwritten source cell is the one reason a CORE step
stops, and a loaded source leaves none. -/
def Obligations.LoadedCoreNeverStops : Prop :=
  ∀ s : State, Inv s →
    (∀ f, coreStep s = .fault f → f = .srcUnwritten ∧ ∃ i < s.lLen, s.src.read i = none) ∧
    (Loaded s → ∃ t, coreStep s = .next t)

/-- R240, with the fault set kept in Safety.Run (the model's choice, assumption log 8): a fault, once recorded, is never
cleared; a state with a recorded fault is never final; and the faulting step makes no other state change. -/
def Obligations.FaultsAreRecordedForGood : Prop :=
  (∀ (r : Run) (f : Fault), step r.state = .fault f →
    f ∈ r.advance.faults ∧ r.advance.state = r.state) ∧
  (∀ (r : Run) (k : Nat) (f : Fault), f ∈ r.faults → f ∈ (r.after k).faults ∧ (r.after k).isFinal = false)

/-- R234, R236: a CORE step that ends an operation in an error writes RESULT = 0 and no DST byte, and reports 0 bytes,
or, in the quartets of a DECODE, the bytes counted so far. -/
def Obligations.FailingStepRecords : Prop :=
  ∀ s t : State, coreStep s = .next t → s.phase ≠ .idle → t.phase = .idle → t.status ≠ .ok →
    t.result = 0 ∧ t.done = true ∧ (∀ a, t.dst.read a = s.dst.read a) ∧ (∀ a, t.src.read a = s.src.read a) ∧
    (s.phase = .start → t.outLen = 0) ∧
    (s.phase ≠ .start → t.outLen = s.wcnt % 2 ^ s.lenW.bits ∧ (t.status = .invBody ∨ t.status = .invFinal))

/-! ### Invariants -/

/-- Every step keeps the shape of the state: the buffers stay canonical and within the address space, and every
LEN_W-bit register stays within LEN_W bits (R6, R20, R22, R23). Over a reset the latches and sequencer registers take
the model's own 0 (assumption log 4). -/
def Obligations.StepKeepsShape : Prop :=
  ∀ s t : State, WellShaped s → step s = .next t → WellShaped t ∧ t.lenW = s.lenW

/-- Every step keeps the sequencer registers in agreement with PHASE (R34, R41, R160-R161, R190-R194). -/
def Obligations.StepKeepsInvariant : Prop :=
  ∀ s t : State, Inv s → step s = .next t → Inv t

/-- R29, R37, R231: STATUS, OUT_LEN and RESULT change only where an operation finishes, or in a reset. -/
def Obligations.ResultsChangeOnlyAtFinish : Prop :=
  ∀ s t : State, step s = .next t →
    (t.status = s.status ∧ t.outLen = s.outLen ∧ t.result = s.result) ∨
    (s.phase ≠ .idle ∧ t.phase = .idle ∧ t.done = true ∧ s.nextAgent = some .core) ∨
    (s.nextAgent = some .host ∧ s.program.head? = some .reset)

/-- What R72 lets a program rely on, which it marks "[derived: from `42_encode.md` rule R161 and `43_decode.md` rules
R191–R193]": once DONE = 1, no operation is running, and until the Host starts one, writes DST or resets, OUT_LEN,
RESULT, STATUS and every DST byte stay. -/
def Obligations.DoneResultsStay : Prop :=
  ∀ s t : State, Inv s → s.done = true → step s = .next t →
    s.phase = .idle ∧
    ((∀ w, s.program.head? ≠ some (.writeReg 0x00 w)) → s.program.head? ≠ some .reset →
      (∀ i b, s.program.head? ≠ some (.writeDst i b)) →
      t.done = true ∧ t.status = s.status ∧ t.outLen = s.outLen ∧ t.result = s.result ∧
      ∀ a, t.dst.read a = s.dst.read a)

/-- R194, which the spec marks "[derived: from rules R190, R191 and R192]": the transitions of PHASE in a
CORE step of a state that meets the invariant; QIDX advances by exactly 1 in a step that stays in its phase (R36). -/
def Obligations.PhaseTransitions : Prop :=
  ∀ s t : State, Inv s → coreStep s = .next t →
    match s.phase with
    | .idle => t = s
    | .start => t.phase = .idle ∨ (s.lCmd = 0x78 ∧ t.phase = .encGrp) ∨
        (s.lCmd = 0x79 ∧ (t.phase = .decBody ∨ t.phase = .decFinal))
    | .encGrp => (t.phase = .encGrp ∧ t.qidx = s.qidx + 1) ∨ (t.phase = .idle ∧ s.qidx + 1 = s.nq)
    | .decBody => (t.phase = .decBody ∧ t.qidx = s.qidx + 1) ∨
        (t.phase = .decFinal ∧ t.qidx = s.qidx + 1 ∧ s.qidx + 1 = s.nb ∧ s.padc ≠ 0) ∨
        (t.phase = .idle ∧ (t.status = .invBody ∨ (s.qidx + 1 = s.nb ∧ s.padc = 0)))
    | .decFinal => t.phase = .idle ∧ (t.status = .ok ∨ t.status = .invFinal)

/-! ### Whole operations -/

/-- R162, which the spec marks "[derived: from rule R160 and rule R161]": the totals of an ENCODE started with the word
0x78, whose operands are all present (EncodeStart states PARAM): the exact number of CORE steps, the cells written
and what they hold, the reported length; and one step with nothing written for an ENCODE that ends in CAPACITY or has
an empty source. -/
def Obligations.EncodeTotals : Prop :=
  ∀ (s : State) (bs : List Byte), s.phase = .start → s.lCmd = 0x78 → s.program = [] →
    s.lLen = bs.length → s.lLen < s.lenW.cells → s.lCap < s.lenW.cells → Holds s.src bs →
    (0 < s.lLen → encodedSize s.lLen ≤ s.lCap →
      (∃ t, runSteps (1 + (s.lLen + 2) / 3) s = .next t ∧ t.phase = .idle ∧ t.done = true ∧ t.status = .ok ∧
        t.outLen = encodedSize s.lLen ∧ t.result = 0 ∧ t.src = s.src ∧
        (encodeBytes bs).length = encodedSize s.lLen ∧ Holds t.dst (encodeBytes bs) ∧
        ∀ a, encodedSize s.lLen ≤ a → t.dst.read a = s.dst.read a) ∧
      ∀ k < 1 + (s.lLen + 2) / 3, ∃ u, runSteps k s = .next u ∧ u.phase ≠ .idle) ∧
    (s.lLen = 0 ∨ s.lCap < encodedSize s.lLen →
      ∃ t, runSteps 1 s = .next t ∧ t.phase = .idle ∧ t.done = true ∧ t.outLen = 0 ∧
        t.status = (if s.lCap < encodedSize s.lLen then .capacity else .ok) ∧ t.dst = s.dst)

/-- R195, which the spec marks "[derived: from rules R190–R192]": the totals of a DECODE started with the word 0x79,
whose operands are all present: past its START step it takes one CORE step per quartet examined, writes exactly the
bytes of the quartets before the first that fails, and reports their number; a DECODE that fails in its START step
takes one step and writes nothing (its status, and the words that end in PARAM, are DecodeStart's). -/
def Obligations.DecodeTotals : Prop :=
  ∀ (s : State) (cs : List Byte), s.phase = .start → s.lCmd = 0x79 → s.program = [] →
    s.lLen = cs.length → s.lLen < s.lenW.cells → s.lCap < s.lenW.cells → Holds s.src cs →
    (∀ p, 0 < s.lLen → 0 < s.lCap → s.lLen % 4 = 0 → SourcePad s.src s.lLen p →
      s.lLen / 4 * 3 - p ≤ s.lCap →
      1 + quartetsExamined cs ≤ 1 + s.lLen / 4 ∧
      (∃ t, runSteps (1 + quartetsExamined cs) s = .next t ∧ t.phase = .idle ∧ t.done = true ∧ t.result = 0 ∧
        t.status = (decodeChars cs).1 ∧ t.outLen = (decodeChars cs).2.length ∧ t.src = s.src ∧
        Holds t.dst (decodeChars cs).2 ∧ (∀ a, t.outLen ≤ a → t.dst.read a = s.dst.read a) ∧
        (t.status = .ok → t.outLen = s.lLen / 4 * 3 - p ∧ t.outLen ≤ s.lCap) ∧
        (t.status ≠ .ok → (t.status = .invBody ∨ t.status = .invFinal) ∧ t.outLen % 3 = 0)) ∧
      ∀ k < 1 + quartetsExamined cs, ∃ u, runSteps k s = .next u ∧ u.phase ≠ .idle) ∧
    ((s.lLen = 0 ∨ s.lCap = 0 ∨ s.lLen % 4 ≠ 0 ∨ ∃ p, SourcePad s.src s.lLen p ∧ s.lCap < s.lLen / 4 * 3 - p) →
      ∃ t, runSteps 1 s = .next t ∧ t.phase = .idle ∧ t.done = true ∧ t.outLen = 0 ∧ t.dst = s.dst)

/-- R272: where the Host has nothing to do, so that every step is the CORE's (the field program and the interleaving are
the model's own, assumption logs 5 and 6), every operation with a loaded source reaches `finish`, within
1 + ceil(n/3) CORE steps. -/
def Obligations.OperationsTerminate : Prop :=
  ∀ s : State, Inv s → Loaded s → s.phase ≠ .idle → s.program = [] →
    ∃ k ≤ 1 + (s.lLen + 2) / 3, ∃ t, runSteps k s = .next t ∧ t.phase = .idle ∧ t.done = true

/-- R163, whose laws the spec marks "[derived: from rules R151, R161 and `43_decode.md` rules R181, R190]": for all byte
strings B, decoding the encoded characters gives B back, as functions on buffers. -/
def Obligations.DecodeOfEncodeIsIdentity : Prop :=
  ∀ bs : List Byte, decodeChars (encodeBytes bs) = (.ok, bs)

/-- R163, whose laws the spec marks as derived: every character ENCODE writes is a legal symbol or `=`, and `=` occurs
only in the last 1 or 2 positions. -/
def Obligations.EncodedCharactersLegal : Prop :=
  ∀ (bs : List Byte) (i : Nat) (c : Byte), (encodeBytes bs)[i]? = some c →
    legal c = true ∨ (c = 0x3D ∧ (encodeBytes bs).length ≤ i + 2)

/-- R163, whose laws the spec marks as derived: the round trip on the machine: ENCODE (0x78), copy
`DST[0 .. OUT_LEN-1]` into SRC, DECODE (0x79). The Host program is empty (the model's own field, assumption log 5). -/
def Obligations.MachineRoundTrip : Prop :=
  ∀ (s : State) (bs : List Byte) (cap2 : Nat), s.phase = .start → s.lCmd = 0x78 → s.program = [] →
    s.lLen = bs.length → 0 < s.lLen → s.lLen < s.lenW.cells → s.lCap < s.lenW.cells → Holds s.src bs →
    encodedSize s.lLen ≤ s.lCap → s.lLen ≤ cap2 → cap2 < s.lenW.cells →
    ∃ k t, runSteps k s = .next t ∧ t.phase = .idle ∧ t.status = .ok ∧
      ∀ m : Memory, (∀ i < t.outLen, m.read i = t.dst.read i) →
        ∃ j u, runSteps j { t with
            src := m, cmd := 0x79, len := t.outLen, cap := cap2,
            lCmd := 0x79, lLen := t.outLen, lCap := cap2, lData := t.data, done := false, phase := .start } = .next u ∧
          u.phase = .idle ∧ u.done = true ∧ u.status = .ok ∧ u.outLen = bs.length ∧ Holds u.dst bs

/-- R196, which the spec marks "[derived: from rules R181, R190 and R191]": a source that decodes OK has `=` only in its
last one or two positions, and, if two, in both; every other placement ends in INV_BODY or INV_FINAL. -/
def Obligations.PaddingPlacement : Prop :=
  ∀ (cs : List Byte), cs.length % 4 = 0 →
    ((decodeChars cs).1 = .ok → ∀ i, cs[i]? = some 0x3D →
      cs.length ≤ i + 2 ∧ (i + 2 = cs.length → cs[cs.length - 1]? = some 0x3D)) ∧
    ((∃ i, cs[i]? = some 0x3D ∧ (i + 2 < cs.length ∨ (i + 2 = cs.length ∧ cs[cs.length - 1]? ≠ some 0x3D))) →
      (decodeChars cs).1 = .invBody ∨ (decodeChars cs).1 = .invFinal)
end

