-- ==== Sys2Proof/Laws/Memory.lean ====
section
/-! SUPPORT. The laws of the buffers: a read after a write, the cells a write leaves alone, and the canonical form
every buffer operation keeps. -/

namespace Sys2Proof.Machine

@[simp] theorem Memory.read_nil (i : Nat) : Memory.read [] i = none := rfl

@[simp] theorem Memory.read_write_same (m : Memory) (i : Nat) (v : Byte) : (m.write i v).read i = some v := by
  induction m with
  | nil => simp [Memory.write, Memory.read]
  | cons c m ih =>
    unfold Memory.write
    split_ifs with h1 h2
    · simp [Memory.read]
    · simp [Memory.read]
    · simp [Memory.read, h2, ih]

theorem Memory.read_write_ne (m : Memory) {i j : Nat} (v : Byte) (h : j ≠ i) : (m.write i v).read j = m.read j := by
  induction m with
  | nil => simp [Memory.write, Memory.read, h]
  | cons c m ih =>
    unfold Memory.write
    split_ifs with h1 h2
    · simp [Memory.read, h]
    · subst h2; simp [Memory.read, h]
    · simp [Memory.read, ih]

theorem Memory.read_writeList_outside (vs : List Byte) (m : Memory) (i j : Nat) (h : j < i ∨ i + vs.length ≤ j) :
    (m.writeList i vs).read j = m.read j := by
  induction vs generalizing m i with
  | nil => rfl
  | cons v vs ih =>
    rw [Memory.writeList, ih, Memory.read_write_ne] <;> simp_all <;> omega

theorem Memory.read_writeList_inside (vs : List Byte) (m : Memory) (i k : Nat) (h : k < vs.length) :
    (m.writeList i vs).read (i + k) = vs[k]? := by
  induction vs generalizing m i k with
  | nil => simp at h
  | cons v vs ih =>
    rw [Memory.writeList]
    cases k with
    | zero => rw [Memory.read_writeList_outside] <;> simp
    | succ k =>
      have := ih (m.write i v) (i + 1) k (by simpa using h)
      rw [show i + (k + 1) = i + 1 + k by omega, this]
      simp

/-- Every cell of the buffer after a write is a cell of the buffer before, or the one written. -/
theorem Memory.mem_write {m : Memory} {i : Nat} {v : Byte} {c : Host.Cell} (h : c ∈ m.write i v) :
    c = (i, v) ∨ c ∈ m := by
  induction m with
  | nil => simpa [Memory.write] using h
  | cons d m ih =>
    unfold Memory.write at h
    split_ifs at h with h1 h2
    · simpa using h
    · rcases List.mem_cons.mp h with h | h <;> simp [h]
    · rcases List.mem_cons.mp h with h | h
      · simp [h]
      · rcases ih h with h | h <;> simp [h]

theorem Memory.wf_write {m : Memory} (h : m.wf) (i : Nat) (v : Byte) : (m.write i v).wf := by
  induction m with
  | nil => simp [Memory.write]
  | cons d m ih =>
    obtain ⟨hd, hm⟩ := List.pairwise_cons.mp h
    unfold Memory.write
    split_ifs with h1 h2
    · exact List.pairwise_cons.mpr ⟨fun c hc => by
        rcases List.mem_cons.mp hc with rfl | hc
        · exact h1
        · exact lt_trans h1 (hd c hc), h⟩
    · subst h2; exact List.pairwise_cons.mpr ⟨hd, hm⟩
    · refine List.pairwise_cons.mpr ⟨fun c hc => ?_, ih hm⟩
      rcases Memory.mem_write hc with rfl | hc
      · simp only; omega
      · exact hd c hc

theorem Memory.wf_writeList (vs : List Byte) {m : Memory} (h : m.wf) (i : Nat) : (m.writeList i vs).wf := by
  induction vs generalizing m i with
  | nil => exact h
  | cons v vs ih => exact ih (Memory.wf_write h i v) (i + 1)

theorem Memory.bound_write {m : Memory} {n i : Nat} {v : Byte} (h : ∀ c ∈ m, c.1 < n) (hi : i < n) :
    ∀ c ∈ m.write i v, c.1 < n := fun c hc => by
  rcases Memory.mem_write hc with rfl | hc
  · exact hi
  · exact h c hc

theorem Memory.bound_writeList (vs : List Byte) {m : Memory} {n i : Nat} (h : ∀ c ∈ m, c.1 < n)
    (hi : i + vs.length ≤ n) : ∀ c ∈ m.writeList i vs, c.1 < n := by
  induction vs generalizing m i with
  | nil => exact h
  | cons v vs ih =>
    simp only [List.length_cons] at hi
    exact ih (Memory.bound_write h (by omega)) (by omega)

/-- A cell below every listed one holds no value. -/
theorem Memory.read_eq_none_of_lt {m : Memory} {i : Nat} (h : ∀ c ∈ m, i < c.1) : m.read i = none := by
  induction m with
  | nil => rfl
  | cons d m ih =>
    have hd := h d (by simp)
    rw [Memory.read, if_neg (by omega)]
    exact ih fun c hc => h c (by simp [hc])

/-- Canonical buffers that read alike are the same list: the form is canonical. -/
theorem Memory.ext_of_wf {m n : Memory} (hm : m.wf) (hn : n.wf) (h : ∀ i, m.read i = n.read i) : m = n := by
  induction m generalizing n with
  | nil =>
    cases n with
    | nil => rfl
    | cons d n => exact absurd (h d.1) (by simp [Memory.read])
  | cons c m ih =>
    cases n with
    | nil => exact absurd (h c.1) (by simp [Memory.read])
    | cons d n =>
      obtain ⟨hc, hm⟩ := List.pairwise_cons.mp hm
      obtain ⟨hd, hn⟩ := List.pairwise_cons.mp hn
      have key : c.1 = d.1 := by
        rcases lt_trichotomy c.1 d.1 with hlt | heq | hgt
        · have h1 := h c.1
          rw [Memory.read, if_pos rfl, Memory.read, if_neg (by omega),
            Memory.read_eq_none_of_lt fun e he => lt_trans hlt (hd e he)] at h1
          exact absurd h1 (by simp)
        · exact heq
        · have h1 := h d.1
          rw [Memory.read, if_neg (by omega), Memory.read, if_pos rfl,
            Memory.read_eq_none_of_lt fun e he => lt_trans hgt (hc e he)] at h1
          exact absurd h1 (by simp)
      have hv := h c.1
      rw [Memory.read, if_pos rfl, Memory.read, if_pos key] at hv
      have hcd : c = d := Prod.ext key (by simpa using hv)
      rw [hcd, ih hm hn fun i => ?_]
      by_cases hi : i = c.1
      · rw [hi, Memory.read_eq_none_of_lt hc, Memory.read_eq_none_of_lt (key ▸ hd)]
      · have := h i
        rwa [Memory.read, if_neg hi, Memory.read, if_neg (key ▸ hi)] at this

theorem State.reset_memory_wf : State.reset.src.wf ∧ State.reset.dst.wf := ⟨List.Pairwise.nil, List.Pairwise.nil⟩

end Sys2Proof.Machine
end

