-- ==== Sys2Proof/Laws/State.lean ====
section
/-! SUPPORT. What each named update of the state leaves in each field: one lemma per field per update, so that no
later proof unfolds a record update. -/

namespace Sys2Proof.Machine

variable (s : State)

/-! ### finish -/

@[simp] theorem State.finish_lenW (st : Status) (ol : Nat) (r : Word) : (s.finish st ol r).lenW = s.lenW := rfl
@[simp] theorem State.finish_src (st : Status) (ol : Nat) (r : Word) : (s.finish st ol r).src = s.src := rfl
@[simp] theorem State.finish_dst (st : Status) (ol : Nat) (r : Word) : (s.finish st ol r).dst = s.dst := rfl
@[simp] theorem State.finish_cmd (st : Status) (ol : Nat) (r : Word) : (s.finish st ol r).cmd = s.cmd := rfl
@[simp] theorem State.finish_len (st : Status) (ol : Nat) (r : Word) : (s.finish st ol r).len = s.len := rfl
@[simp] theorem State.finish_cap (st : Status) (ol : Nat) (r : Word) : (s.finish st ol r).cap = s.cap := rfl
@[simp] theorem State.finish_data (st : Status) (ol : Nat) (r : Word) : (s.finish st ol r).data = s.data := rfl
@[simp] theorem State.finish_done (st : Status) (ol : Nat) (r : Word) : (s.finish st ol r).done = true := rfl
@[simp] theorem State.finish_status (st : Status) (ol : Nat) (r : Word) : (s.finish st ol r).status = st := rfl
@[simp] theorem State.finish_outLen (st : Status) (ol : Nat) (r : Word) : (s.finish st ol r).outLen = s.fit ol := rfl
@[simp] theorem State.finish_result (st : Status) (ol : Nat) (r : Word) : (s.finish st ol r).result = r := rfl
@[simp] theorem State.finish_phase (st : Status) (ol : Nat) (r : Word) : (s.finish st ol r).phase = .idle := rfl
@[simp] theorem State.finish_lCmd (st : Status) (ol : Nat) (r : Word) : (s.finish st ol r).lCmd = s.lCmd := rfl
@[simp] theorem State.finish_lLen (st : Status) (ol : Nat) (r : Word) : (s.finish st ol r).lLen = s.lLen := rfl
@[simp] theorem State.finish_lCap (st : Status) (ol : Nat) (r : Word) : (s.finish st ol r).lCap = s.lCap := rfl
@[simp] theorem State.finish_lData (st : Status) (ol : Nat) (r : Word) : (s.finish st ol r).lData = s.lData := rfl
@[simp] theorem State.finish_qidx (st : Status) (ol : Nat) (r : Word) : (s.finish st ol r).qidx = s.qidx := rfl
@[simp] theorem State.finish_nq (st : Status) (ol : Nat) (r : Word) : (s.finish st ol r).nq = s.nq := rfl
@[simp] theorem State.finish_nb (st : Status) (ol : Nat) (r : Word) : (s.finish st ol r).nb = s.nb := rfl
@[simp] theorem State.finish_padc (st : Status) (ol : Nat) (r : Word) : (s.finish st ol r).padc = s.padc := rfl
@[simp] theorem State.finish_wcnt (st : Status) (ol : Nat) (r : Word) : (s.finish st ol r).wcnt = s.wcnt := rfl
@[simp] theorem State.finish_program (st : Status) (ol : Nat) (r : Word) : (s.finish st ol r).program = s.program := rfl
@[simp] theorem State.finish_turns (st : Status) (ol : Nat) (r : Word) : (s.finish st ol r).turns = s.turns := rfl
@[simp] theorem State.finish_reads (st : Status) (ol : Nat) (r : Word) : (s.finish st ol r).reads = s.reads := rfl

/-! ### acceptCmd -/

@[simp] theorem State.acceptCmd_lenW (w : Word) : (s.acceptCmd w).lenW = s.lenW := rfl
@[simp] theorem State.acceptCmd_src (w : Word) : (s.acceptCmd w).src = s.src := rfl
@[simp] theorem State.acceptCmd_dst (w : Word) : (s.acceptCmd w).dst = s.dst := rfl
@[simp] theorem State.acceptCmd_cmd (w : Word) : (s.acceptCmd w).cmd = w := rfl
@[simp] theorem State.acceptCmd_len (w : Word) : (s.acceptCmd w).len = s.len := rfl
@[simp] theorem State.acceptCmd_cap (w : Word) : (s.acceptCmd w).cap = s.cap := rfl
@[simp] theorem State.acceptCmd_data (w : Word) : (s.acceptCmd w).data = s.data := rfl
@[simp] theorem State.acceptCmd_done (w : Word) : (s.acceptCmd w).done = false := rfl
@[simp] theorem State.acceptCmd_status (w : Word) : (s.acceptCmd w).status = s.status := rfl
@[simp] theorem State.acceptCmd_outLen (w : Word) : (s.acceptCmd w).outLen = s.outLen := rfl
@[simp] theorem State.acceptCmd_result (w : Word) : (s.acceptCmd w).result = s.result := rfl
@[simp] theorem State.acceptCmd_phase (w : Word) : (s.acceptCmd w).phase = .start := rfl
@[simp] theorem State.acceptCmd_lCmd (w : Word) : (s.acceptCmd w).lCmd = w := rfl
@[simp] theorem State.acceptCmd_lLen (w : Word) : (s.acceptCmd w).lLen = s.len := rfl
@[simp] theorem State.acceptCmd_lCap (w : Word) : (s.acceptCmd w).lCap = s.cap := rfl
@[simp] theorem State.acceptCmd_lData (w : Word) : (s.acceptCmd w).lData = s.data := rfl
@[simp] theorem State.acceptCmd_qidx (w : Word) : (s.acceptCmd w).qidx = s.qidx := rfl
@[simp] theorem State.acceptCmd_nq (w : Word) : (s.acceptCmd w).nq = s.nq := rfl
@[simp] theorem State.acceptCmd_nb (w : Word) : (s.acceptCmd w).nb = s.nb := rfl
@[simp] theorem State.acceptCmd_padc (w : Word) : (s.acceptCmd w).padc = s.padc := rfl
@[simp] theorem State.acceptCmd_wcnt (w : Word) : (s.acceptCmd w).wcnt = s.wcnt := rfl
@[simp] theorem State.acceptCmd_program (w : Word) : (s.acceptCmd w).program = s.program := rfl
@[simp] theorem State.acceptCmd_turns (w : Word) : (s.acceptCmd w).turns = s.turns := rfl
@[simp] theorem State.acceptCmd_reads (w : Word) : (s.acceptCmd w).reads = s.reads := rfl

/-! ### setLen -/

@[simp] theorem State.setLen_lenW (v : Word) : (s.setLen v).lenW = s.lenW := rfl
@[simp] theorem State.setLen_src (v : Word) : (s.setLen v).src = s.src := rfl
@[simp] theorem State.setLen_dst (v : Word) : (s.setLen v).dst = s.dst := rfl
@[simp] theorem State.setLen_cmd (v : Word) : (s.setLen v).cmd = s.cmd := rfl
@[simp] theorem State.setLen_len (v : Word) : (s.setLen v).len = s.fit v.toNat := rfl
@[simp] theorem State.setLen_cap (v : Word) : (s.setLen v).cap = s.cap := rfl
@[simp] theorem State.setLen_data (v : Word) : (s.setLen v).data = s.data := rfl
@[simp] theorem State.setLen_done (v : Word) : (s.setLen v).done = s.done := rfl
@[simp] theorem State.setLen_status (v : Word) : (s.setLen v).status = s.status := rfl
@[simp] theorem State.setLen_outLen (v : Word) : (s.setLen v).outLen = s.outLen := rfl
@[simp] theorem State.setLen_result (v : Word) : (s.setLen v).result = s.result := rfl
@[simp] theorem State.setLen_phase (v : Word) : (s.setLen v).phase = s.phase := rfl
@[simp] theorem State.setLen_lCmd (v : Word) : (s.setLen v).lCmd = s.lCmd := rfl
@[simp] theorem State.setLen_lLen (v : Word) : (s.setLen v).lLen = s.lLen := rfl
@[simp] theorem State.setLen_lCap (v : Word) : (s.setLen v).lCap = s.lCap := rfl
@[simp] theorem State.setLen_lData (v : Word) : (s.setLen v).lData = s.lData := rfl
@[simp] theorem State.setLen_qidx (v : Word) : (s.setLen v).qidx = s.qidx := rfl
@[simp] theorem State.setLen_nq (v : Word) : (s.setLen v).nq = s.nq := rfl
@[simp] theorem State.setLen_nb (v : Word) : (s.setLen v).nb = s.nb := rfl
@[simp] theorem State.setLen_padc (v : Word) : (s.setLen v).padc = s.padc := rfl
@[simp] theorem State.setLen_wcnt (v : Word) : (s.setLen v).wcnt = s.wcnt := rfl
@[simp] theorem State.setLen_program (v : Word) : (s.setLen v).program = s.program := rfl
@[simp] theorem State.setLen_turns (v : Word) : (s.setLen v).turns = s.turns := rfl
@[simp] theorem State.setLen_reads (v : Word) : (s.setLen v).reads = s.reads := rfl

/-! ### setCap -/

@[simp] theorem State.setCap_lenW (v : Word) : (s.setCap v).lenW = s.lenW := rfl
@[simp] theorem State.setCap_src (v : Word) : (s.setCap v).src = s.src := rfl
@[simp] theorem State.setCap_dst (v : Word) : (s.setCap v).dst = s.dst := rfl
@[simp] theorem State.setCap_cmd (v : Word) : (s.setCap v).cmd = s.cmd := rfl
@[simp] theorem State.setCap_len (v : Word) : (s.setCap v).len = s.len := rfl
@[simp] theorem State.setCap_cap (v : Word) : (s.setCap v).cap = s.fit v.toNat := rfl
@[simp] theorem State.setCap_data (v : Word) : (s.setCap v).data = s.data := rfl
@[simp] theorem State.setCap_done (v : Word) : (s.setCap v).done = s.done := rfl
@[simp] theorem State.setCap_status (v : Word) : (s.setCap v).status = s.status := rfl
@[simp] theorem State.setCap_outLen (v : Word) : (s.setCap v).outLen = s.outLen := rfl
@[simp] theorem State.setCap_result (v : Word) : (s.setCap v).result = s.result := rfl
@[simp] theorem State.setCap_phase (v : Word) : (s.setCap v).phase = s.phase := rfl
@[simp] theorem State.setCap_lCmd (v : Word) : (s.setCap v).lCmd = s.lCmd := rfl
@[simp] theorem State.setCap_lLen (v : Word) : (s.setCap v).lLen = s.lLen := rfl
@[simp] theorem State.setCap_lCap (v : Word) : (s.setCap v).lCap = s.lCap := rfl
@[simp] theorem State.setCap_lData (v : Word) : (s.setCap v).lData = s.lData := rfl
@[simp] theorem State.setCap_qidx (v : Word) : (s.setCap v).qidx = s.qidx := rfl
@[simp] theorem State.setCap_nq (v : Word) : (s.setCap v).nq = s.nq := rfl
@[simp] theorem State.setCap_nb (v : Word) : (s.setCap v).nb = s.nb := rfl
@[simp] theorem State.setCap_padc (v : Word) : (s.setCap v).padc = s.padc := rfl
@[simp] theorem State.setCap_wcnt (v : Word) : (s.setCap v).wcnt = s.wcnt := rfl
@[simp] theorem State.setCap_program (v : Word) : (s.setCap v).program = s.program := rfl
@[simp] theorem State.setCap_turns (v : Word) : (s.setCap v).turns = s.turns := rfl
@[simp] theorem State.setCap_reads (v : Word) : (s.setCap v).reads = s.reads := rfl

/-! ### setData -/

@[simp] theorem State.setData_lenW (v : Word) : (s.setData v).lenW = s.lenW := rfl
@[simp] theorem State.setData_src (v : Word) : (s.setData v).src = s.src := rfl
@[simp] theorem State.setData_dst (v : Word) : (s.setData v).dst = s.dst := rfl
@[simp] theorem State.setData_cmd (v : Word) : (s.setData v).cmd = s.cmd := rfl
@[simp] theorem State.setData_len (v : Word) : (s.setData v).len = s.len := rfl
@[simp] theorem State.setData_cap (v : Word) : (s.setData v).cap = s.cap := rfl
@[simp] theorem State.setData_data (v : Word) : (s.setData v).data = v := rfl
@[simp] theorem State.setData_done (v : Word) : (s.setData v).done = s.done := rfl
@[simp] theorem State.setData_status (v : Word) : (s.setData v).status = s.status := rfl
@[simp] theorem State.setData_outLen (v : Word) : (s.setData v).outLen = s.outLen := rfl
@[simp] theorem State.setData_result (v : Word) : (s.setData v).result = s.result := rfl
@[simp] theorem State.setData_phase (v : Word) : (s.setData v).phase = s.phase := rfl
@[simp] theorem State.setData_lCmd (v : Word) : (s.setData v).lCmd = s.lCmd := rfl
@[simp] theorem State.setData_lLen (v : Word) : (s.setData v).lLen = s.lLen := rfl
@[simp] theorem State.setData_lCap (v : Word) : (s.setData v).lCap = s.lCap := rfl
@[simp] theorem State.setData_lData (v : Word) : (s.setData v).lData = s.lData := rfl
@[simp] theorem State.setData_qidx (v : Word) : (s.setData v).qidx = s.qidx := rfl
@[simp] theorem State.setData_nq (v : Word) : (s.setData v).nq = s.nq := rfl
@[simp] theorem State.setData_nb (v : Word) : (s.setData v).nb = s.nb := rfl
@[simp] theorem State.setData_padc (v : Word) : (s.setData v).padc = s.padc := rfl
@[simp] theorem State.setData_wcnt (v : Word) : (s.setData v).wcnt = s.wcnt := rfl
@[simp] theorem State.setData_program (v : Word) : (s.setData v).program = s.program := rfl
@[simp] theorem State.setData_turns (v : Word) : (s.setData v).turns = s.turns := rfl
@[simp] theorem State.setData_reads (v : Word) : (s.setData v).reads = s.reads := rfl

/-! ### putSrc -/

@[simp] theorem State.putSrc_lenW (i : Nat) (b : Byte) : (s.putSrc i b).lenW = s.lenW := rfl
@[simp] theorem State.putSrc_src (i : Nat) (b : Byte) : (s.putSrc i b).src = s.src.write i b := rfl
@[simp] theorem State.putSrc_dst (i : Nat) (b : Byte) : (s.putSrc i b).dst = s.dst := rfl
@[simp] theorem State.putSrc_cmd (i : Nat) (b : Byte) : (s.putSrc i b).cmd = s.cmd := rfl
@[simp] theorem State.putSrc_len (i : Nat) (b : Byte) : (s.putSrc i b).len = s.len := rfl
@[simp] theorem State.putSrc_cap (i : Nat) (b : Byte) : (s.putSrc i b).cap = s.cap := rfl
@[simp] theorem State.putSrc_data (i : Nat) (b : Byte) : (s.putSrc i b).data = s.data := rfl
@[simp] theorem State.putSrc_done (i : Nat) (b : Byte) : (s.putSrc i b).done = s.done := rfl
@[simp] theorem State.putSrc_status (i : Nat) (b : Byte) : (s.putSrc i b).status = s.status := rfl
@[simp] theorem State.putSrc_outLen (i : Nat) (b : Byte) : (s.putSrc i b).outLen = s.outLen := rfl
@[simp] theorem State.putSrc_result (i : Nat) (b : Byte) : (s.putSrc i b).result = s.result := rfl
@[simp] theorem State.putSrc_phase (i : Nat) (b : Byte) : (s.putSrc i b).phase = s.phase := rfl
@[simp] theorem State.putSrc_lCmd (i : Nat) (b : Byte) : (s.putSrc i b).lCmd = s.lCmd := rfl
@[simp] theorem State.putSrc_lLen (i : Nat) (b : Byte) : (s.putSrc i b).lLen = s.lLen := rfl
@[simp] theorem State.putSrc_lCap (i : Nat) (b : Byte) : (s.putSrc i b).lCap = s.lCap := rfl
@[simp] theorem State.putSrc_lData (i : Nat) (b : Byte) : (s.putSrc i b).lData = s.lData := rfl
@[simp] theorem State.putSrc_qidx (i : Nat) (b : Byte) : (s.putSrc i b).qidx = s.qidx := rfl
@[simp] theorem State.putSrc_nq (i : Nat) (b : Byte) : (s.putSrc i b).nq = s.nq := rfl
@[simp] theorem State.putSrc_nb (i : Nat) (b : Byte) : (s.putSrc i b).nb = s.nb := rfl
@[simp] theorem State.putSrc_padc (i : Nat) (b : Byte) : (s.putSrc i b).padc = s.padc := rfl
@[simp] theorem State.putSrc_wcnt (i : Nat) (b : Byte) : (s.putSrc i b).wcnt = s.wcnt := rfl
@[simp] theorem State.putSrc_program (i : Nat) (b : Byte) : (s.putSrc i b).program = s.program := rfl
@[simp] theorem State.putSrc_turns (i : Nat) (b : Byte) : (s.putSrc i b).turns = s.turns := rfl
@[simp] theorem State.putSrc_reads (i : Nat) (b : Byte) : (s.putSrc i b).reads = s.reads := rfl

/-! ### putDst -/

@[simp] theorem State.putDst_lenW (i : Nat) (bs : List Byte) : (s.putDst i bs).lenW = s.lenW := rfl
@[simp] theorem State.putDst_src (i : Nat) (bs : List Byte) : (s.putDst i bs).src = s.src := rfl
@[simp] theorem State.putDst_dst (i : Nat) (bs : List Byte) : (s.putDst i bs).dst = s.dst.writeList i bs := rfl
@[simp] theorem State.putDst_cmd (i : Nat) (bs : List Byte) : (s.putDst i bs).cmd = s.cmd := rfl
@[simp] theorem State.putDst_len (i : Nat) (bs : List Byte) : (s.putDst i bs).len = s.len := rfl
@[simp] theorem State.putDst_cap (i : Nat) (bs : List Byte) : (s.putDst i bs).cap = s.cap := rfl
@[simp] theorem State.putDst_data (i : Nat) (bs : List Byte) : (s.putDst i bs).data = s.data := rfl
@[simp] theorem State.putDst_done (i : Nat) (bs : List Byte) : (s.putDst i bs).done = s.done := rfl
@[simp] theorem State.putDst_status (i : Nat) (bs : List Byte) : (s.putDst i bs).status = s.status := rfl
@[simp] theorem State.putDst_outLen (i : Nat) (bs : List Byte) : (s.putDst i bs).outLen = s.outLen := rfl
@[simp] theorem State.putDst_result (i : Nat) (bs : List Byte) : (s.putDst i bs).result = s.result := rfl
@[simp] theorem State.putDst_phase (i : Nat) (bs : List Byte) : (s.putDst i bs).phase = s.phase := rfl
@[simp] theorem State.putDst_lCmd (i : Nat) (bs : List Byte) : (s.putDst i bs).lCmd = s.lCmd := rfl
@[simp] theorem State.putDst_lLen (i : Nat) (bs : List Byte) : (s.putDst i bs).lLen = s.lLen := rfl
@[simp] theorem State.putDst_lCap (i : Nat) (bs : List Byte) : (s.putDst i bs).lCap = s.lCap := rfl
@[simp] theorem State.putDst_lData (i : Nat) (bs : List Byte) : (s.putDst i bs).lData = s.lData := rfl
@[simp] theorem State.putDst_qidx (i : Nat) (bs : List Byte) : (s.putDst i bs).qidx = s.qidx := rfl
@[simp] theorem State.putDst_nq (i : Nat) (bs : List Byte) : (s.putDst i bs).nq = s.nq := rfl
@[simp] theorem State.putDst_nb (i : Nat) (bs : List Byte) : (s.putDst i bs).nb = s.nb := rfl
@[simp] theorem State.putDst_padc (i : Nat) (bs : List Byte) : (s.putDst i bs).padc = s.padc := rfl
@[simp] theorem State.putDst_wcnt (i : Nat) (bs : List Byte) : (s.putDst i bs).wcnt = s.wcnt := rfl
@[simp] theorem State.putDst_program (i : Nat) (bs : List Byte) : (s.putDst i bs).program = s.program := rfl
@[simp] theorem State.putDst_turns (i : Nat) (bs : List Byte) : (s.putDst i bs).turns = s.turns := rfl
@[simp] theorem State.putDst_reads (i : Nat) (bs : List Byte) : (s.putDst i bs).reads = s.reads := rfl

/-! ### beginEncode -/

@[simp] theorem State.beginEncode_lenW (g : Nat) : (s.beginEncode g).lenW = s.lenW := rfl
@[simp] theorem State.beginEncode_src (g : Nat) : (s.beginEncode g).src = s.src := rfl
@[simp] theorem State.beginEncode_dst (g : Nat) : (s.beginEncode g).dst = s.dst := rfl
@[simp] theorem State.beginEncode_cmd (g : Nat) : (s.beginEncode g).cmd = s.cmd := rfl
@[simp] theorem State.beginEncode_len (g : Nat) : (s.beginEncode g).len = s.len := rfl
@[simp] theorem State.beginEncode_cap (g : Nat) : (s.beginEncode g).cap = s.cap := rfl
@[simp] theorem State.beginEncode_data (g : Nat) : (s.beginEncode g).data = s.data := rfl
@[simp] theorem State.beginEncode_done (g : Nat) : (s.beginEncode g).done = s.done := rfl
@[simp] theorem State.beginEncode_status (g : Nat) : (s.beginEncode g).status = s.status := rfl
@[simp] theorem State.beginEncode_outLen (g : Nat) : (s.beginEncode g).outLen = s.outLen := rfl
@[simp] theorem State.beginEncode_result (g : Nat) : (s.beginEncode g).result = s.result := rfl
@[simp] theorem State.beginEncode_phase (g : Nat) : (s.beginEncode g).phase = .encGrp := rfl
@[simp] theorem State.beginEncode_lCmd (g : Nat) : (s.beginEncode g).lCmd = s.lCmd := rfl
@[simp] theorem State.beginEncode_lLen (g : Nat) : (s.beginEncode g).lLen = s.lLen := rfl
@[simp] theorem State.beginEncode_lCap (g : Nat) : (s.beginEncode g).lCap = s.lCap := rfl
@[simp] theorem State.beginEncode_lData (g : Nat) : (s.beginEncode g).lData = s.lData := rfl
@[simp] theorem State.beginEncode_qidx (g : Nat) : (s.beginEncode g).qidx = 0 := rfl
@[simp] theorem State.beginEncode_nq (g : Nat) : (s.beginEncode g).nq = s.fit g := rfl
@[simp] theorem State.beginEncode_nb (g : Nat) : (s.beginEncode g).nb = s.nb := rfl
@[simp] theorem State.beginEncode_padc (g : Nat) : (s.beginEncode g).padc = s.padc := rfl
@[simp] theorem State.beginEncode_wcnt (g : Nat) : (s.beginEncode g).wcnt = 0 := rfl
@[simp] theorem State.beginEncode_program (g : Nat) : (s.beginEncode g).program = s.program := rfl
@[simp] theorem State.beginEncode_turns (g : Nat) : (s.beginEncode g).turns = s.turns := rfl
@[simp] theorem State.beginEncode_reads (g : Nat) : (s.beginEncode g).reads = s.reads := rfl

/-! ### setPadc -/

@[simp] theorem State.setPadc_lenW (p : BitVec 2) : (s.setPadc p).lenW = s.lenW := rfl
@[simp] theorem State.setPadc_src (p : BitVec 2) : (s.setPadc p).src = s.src := rfl
@[simp] theorem State.setPadc_dst (p : BitVec 2) : (s.setPadc p).dst = s.dst := rfl
@[simp] theorem State.setPadc_cmd (p : BitVec 2) : (s.setPadc p).cmd = s.cmd := rfl
@[simp] theorem State.setPadc_len (p : BitVec 2) : (s.setPadc p).len = s.len := rfl
@[simp] theorem State.setPadc_cap (p : BitVec 2) : (s.setPadc p).cap = s.cap := rfl
@[simp] theorem State.setPadc_data (p : BitVec 2) : (s.setPadc p).data = s.data := rfl
@[simp] theorem State.setPadc_done (p : BitVec 2) : (s.setPadc p).done = s.done := rfl
@[simp] theorem State.setPadc_status (p : BitVec 2) : (s.setPadc p).status = s.status := rfl
@[simp] theorem State.setPadc_outLen (p : BitVec 2) : (s.setPadc p).outLen = s.outLen := rfl
@[simp] theorem State.setPadc_result (p : BitVec 2) : (s.setPadc p).result = s.result := rfl
@[simp] theorem State.setPadc_phase (p : BitVec 2) : (s.setPadc p).phase = s.phase := rfl
@[simp] theorem State.setPadc_lCmd (p : BitVec 2) : (s.setPadc p).lCmd = s.lCmd := rfl
@[simp] theorem State.setPadc_lLen (p : BitVec 2) : (s.setPadc p).lLen = s.lLen := rfl
@[simp] theorem State.setPadc_lCap (p : BitVec 2) : (s.setPadc p).lCap = s.lCap := rfl
@[simp] theorem State.setPadc_lData (p : BitVec 2) : (s.setPadc p).lData = s.lData := rfl
@[simp] theorem State.setPadc_qidx (p : BitVec 2) : (s.setPadc p).qidx = s.qidx := rfl
@[simp] theorem State.setPadc_nq (p : BitVec 2) : (s.setPadc p).nq = s.nq := rfl
@[simp] theorem State.setPadc_nb (p : BitVec 2) : (s.setPadc p).nb = s.nb := rfl
@[simp] theorem State.setPadc_padc (p : BitVec 2) : (s.setPadc p).padc = p := rfl
@[simp] theorem State.setPadc_wcnt (p : BitVec 2) : (s.setPadc p).wcnt = s.wcnt := rfl
@[simp] theorem State.setPadc_program (p : BitVec 2) : (s.setPadc p).program = s.program := rfl
@[simp] theorem State.setPadc_turns (p : BitVec 2) : (s.setPadc p).turns = s.turns := rfl
@[simp] theorem State.setPadc_reads (p : BitVec 2) : (s.setPadc p).reads = s.reads := rfl

/-! ### beginDecode -/

@[simp] theorem State.beginDecode_lenW (q b : Nat) : (s.beginDecode q b).lenW = s.lenW := rfl
@[simp] theorem State.beginDecode_src (q b : Nat) : (s.beginDecode q b).src = s.src := rfl
@[simp] theorem State.beginDecode_dst (q b : Nat) : (s.beginDecode q b).dst = s.dst := rfl
@[simp] theorem State.beginDecode_cmd (q b : Nat) : (s.beginDecode q b).cmd = s.cmd := rfl
@[simp] theorem State.beginDecode_len (q b : Nat) : (s.beginDecode q b).len = s.len := rfl
@[simp] theorem State.beginDecode_cap (q b : Nat) : (s.beginDecode q b).cap = s.cap := rfl
@[simp] theorem State.beginDecode_data (q b : Nat) : (s.beginDecode q b).data = s.data := rfl
@[simp] theorem State.beginDecode_done (q b : Nat) : (s.beginDecode q b).done = s.done := rfl
@[simp] theorem State.beginDecode_status (q b : Nat) : (s.beginDecode q b).status = s.status := rfl
@[simp] theorem State.beginDecode_outLen (q b : Nat) : (s.beginDecode q b).outLen = s.outLen := rfl
@[simp] theorem State.beginDecode_result (q b : Nat) : (s.beginDecode q b).result = s.result := rfl
@[simp] theorem State.beginDecode_phase (q b : Nat) : (s.beginDecode q b).phase = if 0 < b then .decBody else .decFinal := rfl
@[simp] theorem State.beginDecode_lCmd (q b : Nat) : (s.beginDecode q b).lCmd = s.lCmd := rfl
@[simp] theorem State.beginDecode_lLen (q b : Nat) : (s.beginDecode q b).lLen = s.lLen := rfl
@[simp] theorem State.beginDecode_lCap (q b : Nat) : (s.beginDecode q b).lCap = s.lCap := rfl
@[simp] theorem State.beginDecode_lData (q b : Nat) : (s.beginDecode q b).lData = s.lData := rfl
@[simp] theorem State.beginDecode_qidx (q b : Nat) : (s.beginDecode q b).qidx = 0 := rfl
@[simp] theorem State.beginDecode_nq (q b : Nat) : (s.beginDecode q b).nq = s.fit q := rfl
@[simp] theorem State.beginDecode_nb (q b : Nat) : (s.beginDecode q b).nb = s.fit b := rfl
@[simp] theorem State.beginDecode_padc (q b : Nat) : (s.beginDecode q b).padc = s.padc := rfl
@[simp] theorem State.beginDecode_wcnt (q b : Nat) : (s.beginDecode q b).wcnt = 0 := rfl
@[simp] theorem State.beginDecode_program (q b : Nat) : (s.beginDecode q b).program = s.program := rfl
@[simp] theorem State.beginDecode_turns (q b : Nat) : (s.beginDecode q b).turns = s.turns := rfl
@[simp] theorem State.beginDecode_reads (q b : Nat) : (s.beginDecode q b).reads = s.reads := rfl

/-! ### countBytes -/

@[simp] theorem State.countBytes_lenW (n : Nat) : (s.countBytes n).lenW = s.lenW := rfl
@[simp] theorem State.countBytes_src (n : Nat) : (s.countBytes n).src = s.src := rfl
@[simp] theorem State.countBytes_dst (n : Nat) : (s.countBytes n).dst = s.dst := rfl
@[simp] theorem State.countBytes_cmd (n : Nat) : (s.countBytes n).cmd = s.cmd := rfl
@[simp] theorem State.countBytes_len (n : Nat) : (s.countBytes n).len = s.len := rfl
@[simp] theorem State.countBytes_cap (n : Nat) : (s.countBytes n).cap = s.cap := rfl
@[simp] theorem State.countBytes_data (n : Nat) : (s.countBytes n).data = s.data := rfl
@[simp] theorem State.countBytes_done (n : Nat) : (s.countBytes n).done = s.done := rfl
@[simp] theorem State.countBytes_status (n : Nat) : (s.countBytes n).status = s.status := rfl
@[simp] theorem State.countBytes_outLen (n : Nat) : (s.countBytes n).outLen = s.outLen := rfl
@[simp] theorem State.countBytes_result (n : Nat) : (s.countBytes n).result = s.result := rfl
@[simp] theorem State.countBytes_phase (n : Nat) : (s.countBytes n).phase = s.phase := rfl
@[simp] theorem State.countBytes_lCmd (n : Nat) : (s.countBytes n).lCmd = s.lCmd := rfl
@[simp] theorem State.countBytes_lLen (n : Nat) : (s.countBytes n).lLen = s.lLen := rfl
@[simp] theorem State.countBytes_lCap (n : Nat) : (s.countBytes n).lCap = s.lCap := rfl
@[simp] theorem State.countBytes_lData (n : Nat) : (s.countBytes n).lData = s.lData := rfl
@[simp] theorem State.countBytes_qidx (n : Nat) : (s.countBytes n).qidx = s.qidx := rfl
@[simp] theorem State.countBytes_nq (n : Nat) : (s.countBytes n).nq = s.nq := rfl
@[simp] theorem State.countBytes_nb (n : Nat) : (s.countBytes n).nb = s.nb := rfl
@[simp] theorem State.countBytes_padc (n : Nat) : (s.countBytes n).padc = s.padc := rfl
@[simp] theorem State.countBytes_wcnt (n : Nat) : (s.countBytes n).wcnt = s.fit (s.wcnt + n) := rfl
@[simp] theorem State.countBytes_program (n : Nat) : (s.countBytes n).program = s.program := rfl
@[simp] theorem State.countBytes_turns (n : Nat) : (s.countBytes n).turns = s.turns := rfl
@[simp] theorem State.countBytes_reads (n : Nat) : (s.countBytes n).reads = s.reads := rfl

/-! ### nextQuartet -/

@[simp] theorem State.nextQuartet_lenW : (s.nextQuartet).lenW = s.lenW := rfl
@[simp] theorem State.nextQuartet_src : (s.nextQuartet).src = s.src := rfl
@[simp] theorem State.nextQuartet_dst : (s.nextQuartet).dst = s.dst := rfl
@[simp] theorem State.nextQuartet_cmd : (s.nextQuartet).cmd = s.cmd := rfl
@[simp] theorem State.nextQuartet_len : (s.nextQuartet).len = s.len := rfl
@[simp] theorem State.nextQuartet_cap : (s.nextQuartet).cap = s.cap := rfl
@[simp] theorem State.nextQuartet_data : (s.nextQuartet).data = s.data := rfl
@[simp] theorem State.nextQuartet_done : (s.nextQuartet).done = s.done := rfl
@[simp] theorem State.nextQuartet_status : (s.nextQuartet).status = s.status := rfl
@[simp] theorem State.nextQuartet_outLen : (s.nextQuartet).outLen = s.outLen := rfl
@[simp] theorem State.nextQuartet_result : (s.nextQuartet).result = s.result := rfl
@[simp] theorem State.nextQuartet_phase : (s.nextQuartet).phase = s.phase := rfl
@[simp] theorem State.nextQuartet_lCmd : (s.nextQuartet).lCmd = s.lCmd := rfl
@[simp] theorem State.nextQuartet_lLen : (s.nextQuartet).lLen = s.lLen := rfl
@[simp] theorem State.nextQuartet_lCap : (s.nextQuartet).lCap = s.lCap := rfl
@[simp] theorem State.nextQuartet_lData : (s.nextQuartet).lData = s.lData := rfl
@[simp] theorem State.nextQuartet_qidx : (s.nextQuartet).qidx = s.fit (s.qidx + 1) := rfl
@[simp] theorem State.nextQuartet_nq : (s.nextQuartet).nq = s.nq := rfl
@[simp] theorem State.nextQuartet_nb : (s.nextQuartet).nb = s.nb := rfl
@[simp] theorem State.nextQuartet_padc : (s.nextQuartet).padc = s.padc := rfl
@[simp] theorem State.nextQuartet_wcnt : (s.nextQuartet).wcnt = s.wcnt := rfl
@[simp] theorem State.nextQuartet_program : (s.nextQuartet).program = s.program := rfl
@[simp] theorem State.nextQuartet_turns : (s.nextQuartet).turns = s.turns := rfl
@[simp] theorem State.nextQuartet_reads : (s.nextQuartet).reads = s.reads := rfl

/-! ### enterFinal -/

@[simp] theorem State.enterFinal_lenW : (s.enterFinal).lenW = s.lenW := rfl
@[simp] theorem State.enterFinal_src : (s.enterFinal).src = s.src := rfl
@[simp] theorem State.enterFinal_dst : (s.enterFinal).dst = s.dst := rfl
@[simp] theorem State.enterFinal_cmd : (s.enterFinal).cmd = s.cmd := rfl
@[simp] theorem State.enterFinal_len : (s.enterFinal).len = s.len := rfl
@[simp] theorem State.enterFinal_cap : (s.enterFinal).cap = s.cap := rfl
@[simp] theorem State.enterFinal_data : (s.enterFinal).data = s.data := rfl
@[simp] theorem State.enterFinal_done : (s.enterFinal).done = s.done := rfl
@[simp] theorem State.enterFinal_status : (s.enterFinal).status = s.status := rfl
@[simp] theorem State.enterFinal_outLen : (s.enterFinal).outLen = s.outLen := rfl
@[simp] theorem State.enterFinal_result : (s.enterFinal).result = s.result := rfl
@[simp] theorem State.enterFinal_phase : (s.enterFinal).phase = .decFinal := rfl
@[simp] theorem State.enterFinal_lCmd : (s.enterFinal).lCmd = s.lCmd := rfl
@[simp] theorem State.enterFinal_lLen : (s.enterFinal).lLen = s.lLen := rfl
@[simp] theorem State.enterFinal_lCap : (s.enterFinal).lCap = s.lCap := rfl
@[simp] theorem State.enterFinal_lData : (s.enterFinal).lData = s.lData := rfl
@[simp] theorem State.enterFinal_qidx : (s.enterFinal).qidx = s.qidx := rfl
@[simp] theorem State.enterFinal_nq : (s.enterFinal).nq = s.nq := rfl
@[simp] theorem State.enterFinal_nb : (s.enterFinal).nb = s.nb := rfl
@[simp] theorem State.enterFinal_padc : (s.enterFinal).padc = s.padc := rfl
@[simp] theorem State.enterFinal_wcnt : (s.enterFinal).wcnt = s.wcnt := rfl
@[simp] theorem State.enterFinal_program : (s.enterFinal).program = s.program := rfl
@[simp] theorem State.enterFinal_turns : (s.enterFinal).turns = s.turns := rfl
@[simp] theorem State.enterFinal_reads : (s.enterFinal).reads = s.reads := rfl

/-! ### setProgram -/

@[simp] theorem State.setProgram_lenW (ops : List HostOp) : (s.setProgram ops).lenW = s.lenW := rfl
@[simp] theorem State.setProgram_src (ops : List HostOp) : (s.setProgram ops).src = s.src := rfl
@[simp] theorem State.setProgram_dst (ops : List HostOp) : (s.setProgram ops).dst = s.dst := rfl
@[simp] theorem State.setProgram_cmd (ops : List HostOp) : (s.setProgram ops).cmd = s.cmd := rfl
@[simp] theorem State.setProgram_len (ops : List HostOp) : (s.setProgram ops).len = s.len := rfl
@[simp] theorem State.setProgram_cap (ops : List HostOp) : (s.setProgram ops).cap = s.cap := rfl
@[simp] theorem State.setProgram_data (ops : List HostOp) : (s.setProgram ops).data = s.data := rfl
@[simp] theorem State.setProgram_done (ops : List HostOp) : (s.setProgram ops).done = s.done := rfl
@[simp] theorem State.setProgram_status (ops : List HostOp) : (s.setProgram ops).status = s.status := rfl
@[simp] theorem State.setProgram_outLen (ops : List HostOp) : (s.setProgram ops).outLen = s.outLen := rfl
@[simp] theorem State.setProgram_result (ops : List HostOp) : (s.setProgram ops).result = s.result := rfl
@[simp] theorem State.setProgram_phase (ops : List HostOp) : (s.setProgram ops).phase = s.phase := rfl
@[simp] theorem State.setProgram_lCmd (ops : List HostOp) : (s.setProgram ops).lCmd = s.lCmd := rfl
@[simp] theorem State.setProgram_lLen (ops : List HostOp) : (s.setProgram ops).lLen = s.lLen := rfl
@[simp] theorem State.setProgram_lCap (ops : List HostOp) : (s.setProgram ops).lCap = s.lCap := rfl
@[simp] theorem State.setProgram_lData (ops : List HostOp) : (s.setProgram ops).lData = s.lData := rfl
@[simp] theorem State.setProgram_qidx (ops : List HostOp) : (s.setProgram ops).qidx = s.qidx := rfl
@[simp] theorem State.setProgram_nq (ops : List HostOp) : (s.setProgram ops).nq = s.nq := rfl
@[simp] theorem State.setProgram_nb (ops : List HostOp) : (s.setProgram ops).nb = s.nb := rfl
@[simp] theorem State.setProgram_padc (ops : List HostOp) : (s.setProgram ops).padc = s.padc := rfl
@[simp] theorem State.setProgram_wcnt (ops : List HostOp) : (s.setProgram ops).wcnt = s.wcnt := rfl
@[simp] theorem State.setProgram_program (ops : List HostOp) : (s.setProgram ops).program = ops := rfl
@[simp] theorem State.setProgram_turns (ops : List HostOp) : (s.setProgram ops).turns = s.turns := rfl
@[simp] theorem State.setProgram_reads (ops : List HostOp) : (s.setProgram ops).reads = s.reads := rfl

/-! ### logRead -/

@[simp] theorem State.logRead_lenW (r : HostRead) : (s.logRead r).lenW = s.lenW := rfl
@[simp] theorem State.logRead_src (r : HostRead) : (s.logRead r).src = s.src := rfl
@[simp] theorem State.logRead_dst (r : HostRead) : (s.logRead r).dst = s.dst := rfl
@[simp] theorem State.logRead_cmd (r : HostRead) : (s.logRead r).cmd = s.cmd := rfl
@[simp] theorem State.logRead_len (r : HostRead) : (s.logRead r).len = s.len := rfl
@[simp] theorem State.logRead_cap (r : HostRead) : (s.logRead r).cap = s.cap := rfl
@[simp] theorem State.logRead_data (r : HostRead) : (s.logRead r).data = s.data := rfl
@[simp] theorem State.logRead_done (r : HostRead) : (s.logRead r).done = s.done := rfl
@[simp] theorem State.logRead_status (r : HostRead) : (s.logRead r).status = s.status := rfl
@[simp] theorem State.logRead_outLen (r : HostRead) : (s.logRead r).outLen = s.outLen := rfl
@[simp] theorem State.logRead_result (r : HostRead) : (s.logRead r).result = s.result := rfl
@[simp] theorem State.logRead_phase (r : HostRead) : (s.logRead r).phase = s.phase := rfl
@[simp] theorem State.logRead_lCmd (r : HostRead) : (s.logRead r).lCmd = s.lCmd := rfl
@[simp] theorem State.logRead_lLen (r : HostRead) : (s.logRead r).lLen = s.lLen := rfl
@[simp] theorem State.logRead_lCap (r : HostRead) : (s.logRead r).lCap = s.lCap := rfl
@[simp] theorem State.logRead_lData (r : HostRead) : (s.logRead r).lData = s.lData := rfl
@[simp] theorem State.logRead_qidx (r : HostRead) : (s.logRead r).qidx = s.qidx := rfl
@[simp] theorem State.logRead_nq (r : HostRead) : (s.logRead r).nq = s.nq := rfl
@[simp] theorem State.logRead_nb (r : HostRead) : (s.logRead r).nb = s.nb := rfl
@[simp] theorem State.logRead_padc (r : HostRead) : (s.logRead r).padc = s.padc := rfl
@[simp] theorem State.logRead_wcnt (r : HostRead) : (s.logRead r).wcnt = s.wcnt := rfl
@[simp] theorem State.logRead_program (r : HostRead) : (s.logRead r).program = s.program := rfl
@[simp] theorem State.logRead_turns (r : HostRead) : (s.logRead r).turns = s.turns := rfl
@[simp] theorem State.logRead_reads (r : HostRead) : (s.logRead r).reads = r :: s.reads := rfl

/-! ### setTurns -/

@[simp] theorem State.setTurns_lenW (ts : List Agent) : (s.setTurns ts).lenW = s.lenW := rfl
@[simp] theorem State.setTurns_src (ts : List Agent) : (s.setTurns ts).src = s.src := rfl
@[simp] theorem State.setTurns_dst (ts : List Agent) : (s.setTurns ts).dst = s.dst := rfl
@[simp] theorem State.setTurns_cmd (ts : List Agent) : (s.setTurns ts).cmd = s.cmd := rfl
@[simp] theorem State.setTurns_len (ts : List Agent) : (s.setTurns ts).len = s.len := rfl
@[simp] theorem State.setTurns_cap (ts : List Agent) : (s.setTurns ts).cap = s.cap := rfl
@[simp] theorem State.setTurns_data (ts : List Agent) : (s.setTurns ts).data = s.data := rfl
@[simp] theorem State.setTurns_done (ts : List Agent) : (s.setTurns ts).done = s.done := rfl
@[simp] theorem State.setTurns_status (ts : List Agent) : (s.setTurns ts).status = s.status := rfl
@[simp] theorem State.setTurns_outLen (ts : List Agent) : (s.setTurns ts).outLen = s.outLen := rfl
@[simp] theorem State.setTurns_result (ts : List Agent) : (s.setTurns ts).result = s.result := rfl
@[simp] theorem State.setTurns_phase (ts : List Agent) : (s.setTurns ts).phase = s.phase := rfl
@[simp] theorem State.setTurns_lCmd (ts : List Agent) : (s.setTurns ts).lCmd = s.lCmd := rfl
@[simp] theorem State.setTurns_lLen (ts : List Agent) : (s.setTurns ts).lLen = s.lLen := rfl
@[simp] theorem State.setTurns_lCap (ts : List Agent) : (s.setTurns ts).lCap = s.lCap := rfl
@[simp] theorem State.setTurns_lData (ts : List Agent) : (s.setTurns ts).lData = s.lData := rfl
@[simp] theorem State.setTurns_qidx (ts : List Agent) : (s.setTurns ts).qidx = s.qidx := rfl
@[simp] theorem State.setTurns_nq (ts : List Agent) : (s.setTurns ts).nq = s.nq := rfl
@[simp] theorem State.setTurns_nb (ts : List Agent) : (s.setTurns ts).nb = s.nb := rfl
@[simp] theorem State.setTurns_padc (ts : List Agent) : (s.setTurns ts).padc = s.padc := rfl
@[simp] theorem State.setTurns_wcnt (ts : List Agent) : (s.setTurns ts).wcnt = s.wcnt := rfl
@[simp] theorem State.setTurns_program (ts : List Agent) : (s.setTurns ts).program = s.program := rfl
@[simp] theorem State.setTurns_turns (ts : List Agent) : (s.setTurns ts).turns = ts := rfl
@[simp] theorem State.setTurns_reads (ts : List Agent) : (s.setTurns ts).reads = s.reads := rfl

/-! ### resetRegs -/

@[simp] theorem State.resetRegs_lenW : (s.resetRegs).lenW = s.lenW := rfl
@[simp] theorem State.resetRegs_src : (s.resetRegs).src = s.src := rfl
@[simp] theorem State.resetRegs_dst : (s.resetRegs).dst = s.dst := rfl
@[simp] theorem State.resetRegs_cmd : (s.resetRegs).cmd = 0 := rfl
@[simp] theorem State.resetRegs_len : (s.resetRegs).len = 0 := rfl
@[simp] theorem State.resetRegs_cap : (s.resetRegs).cap = 0 := rfl
@[simp] theorem State.resetRegs_data : (s.resetRegs).data = 0 := rfl
@[simp] theorem State.resetRegs_done : (s.resetRegs).done = false := rfl
@[simp] theorem State.resetRegs_status : (s.resetRegs).status = .ok := rfl
@[simp] theorem State.resetRegs_outLen : (s.resetRegs).outLen = 0 := rfl
@[simp] theorem State.resetRegs_result : (s.resetRegs).result = 0 := rfl
@[simp] theorem State.resetRegs_phase : (s.resetRegs).phase = .idle := rfl
@[simp] theorem State.resetRegs_lCmd : (s.resetRegs).lCmd = 0 := rfl
@[simp] theorem State.resetRegs_lLen : (s.resetRegs).lLen = 0 := rfl
@[simp] theorem State.resetRegs_lCap : (s.resetRegs).lCap = 0 := rfl
@[simp] theorem State.resetRegs_lData : (s.resetRegs).lData = 0 := rfl
@[simp] theorem State.resetRegs_qidx : (s.resetRegs).qidx = 0 := rfl
@[simp] theorem State.resetRegs_nq : (s.resetRegs).nq = 0 := rfl
@[simp] theorem State.resetRegs_nb : (s.resetRegs).nb = 0 := rfl
@[simp] theorem State.resetRegs_padc : (s.resetRegs).padc = 0 := rfl
@[simp] theorem State.resetRegs_wcnt : (s.resetRegs).wcnt = 0 := rfl
@[simp] theorem State.resetRegs_program : (s.resetRegs).program = s.program := rfl
@[simp] theorem State.resetRegs_turns : (s.resetRegs).turns = s.turns := rfl
@[simp] theorem State.resetRegs_reads : (s.resetRegs).reads = s.reads := rfl

end Sys2Proof.Machine
end

