-- ==== Sys2Proof/Laws/Ops.lean ====
section
/-! SUPPORT. Each shared operation said once: when it answers, and what it answers. -/

namespace Sys2Proof

/-- The cells of any build: between 16 and 2^31 (R6). -/
theorem LenW.cells_bounds (w : LenW) : 16 ≤ w.cells ∧ w.cells ≤ 2 ^ 31 := by
  have h := w.aboveFour.isLt
  have h1 : 4 ≤ w.bits := by simp [LenW.bits]
  have h2 : w.bits ≤ 31 := by simp only [LenW.bits]; omega
  exact ⟨Nat.pow_le_pow_right (n := 2) (by omega) h1, Nat.pow_le_pow_right (n := 2) (by omega) h2⟩

theorem LenW.cells_pos (w : LenW) : 0 < w.cells := by have := w.cells_bounds; omega

end Sys2Proof

namespace Sys2Proof.Machine

/-! ### LEN_W-bit values -/

theorem State.fit_lt (s : State) (v : Nat) : s.fit v < s.lenW.cells := Nat.mod_lt _ s.lenW.cells_pos

theorem State.fit_of_lt {s : State} {v : Nat} (h : v < s.lenW.cells) : s.fit v = v := Nat.mod_eq_of_lt h

@[simp] theorem State.fit_zero (s : State) : s.fit 0 = 0 := Nat.zero_mod _

/-- The small counts that commands report fit every build. -/
theorem State.fit_small {s : State} {v : Nat} (h : v < 16) : s.fit v = v :=
  State.fit_of_lt (by have := s.lenW.cells_bounds; omega)

theorem State.fit_congr {s t : State} (h : t.lenW = s.lenW) (v : Nat) : t.fit v = s.fit v := by
  simp [State.fit, h]

/-! ### BUSY -/

@[simp] theorem State.busy_iff (s : State) : s.busy = true ↔ s.phase ≠ .idle := by simp [State.busy]

@[simp] theorem State.busy_eq_false (s : State) : s.busy = false ↔ s.phase = .idle := by
  cases h : s.phase <;> simp [State.busy, h]

/-! ### CORE accesses -/

theorem State.loadSrc_ok {s : State} {i : Nat} {b : Byte} :
    s.loadSrc i = .ok b ↔ i < s.lenW.cells ∧ s.src.read i = some b := by
  unfold State.loadSrc
  split_ifs with h
  · cases hr : s.src.read i <;> simp [h]
  · simp [h]

theorem State.loadSrc_unwritten {s : State} {i : Nat} (h : i < s.lenW.cells) (hr : s.src.read i = none) :
    s.loadSrc i = .error .srcUnwritten := by simp [State.loadSrc, h, hr]

/-- A CORE read faults for one of two reasons. -/
theorem State.loadSrc_error {s : State} {i : Nat} {f : Fault} (h : s.loadSrc i = .error f) :
    (f = .srcUnwritten ∧ i < s.lenW.cells ∧ s.src.read i = none) ∨ (f = .noSuchCell ∧ s.lenW.cells ≤ i) := by
  unfold State.loadSrc at h
  split_ifs at h with hi
  · cases hr : s.src.read i <;> simp [hr] at h
    exact .inl ⟨h.symm, hi, rfl⟩
  · exact .inr ⟨by simpa using h.symm, by omega⟩

theorem State.loadSrcIf_ok {s : State} {c : Bool} {i : Nat} {b : Byte} :
    s.loadSrcIf c i = .ok b ↔ if c then s.loadSrc i = .ok b else b = 0 := by
  cases c
  · simp only [State.loadSrcIf, Bool.false_eq_true, if_false, Except.ok.injEq]
    exact eq_comm
  · simp [State.loadSrcIf]

theorem State.storeDst_ok {s t : State} {i : Nat} {bs : List Byte} :
    s.storeDst i bs = .ok t ↔ i + bs.length ≤ s.lenW.cells ∧ t = s.putDst i bs := by
  unfold State.storeDst
  split_ifs with h <;> simp [h, eq_comm]

theorem State.storeDst_of_le {s : State} {i : Nat} {bs : List Byte} (h : i + bs.length ≤ s.lenW.cells) :
    s.storeDst i bs = .ok (s.putDst i bs) := if_pos h

@[simp] theorem bytes32_length (v : Word) : (bytes32 v).length = 4 := rfl

@[simp] theorem bytes24_length (v : BitVec 24) : (bytes24 v).length = 3 := rfl

/-- A quartet is read when its four cells are. -/
theorem State.loadQuartet_ok {s : State} {q : Nat} {c : Chars} :
    s.loadQuartet q = .ok c ↔
      s.loadSrc (4 * q) = .ok c.c0 ∧ s.loadSrc (4 * q + 1) = .ok c.c1 ∧
      s.loadSrc (4 * q + 2) = .ok c.c2 ∧ s.loadSrc (4 * q + 3) = .ok c.c3 := by
  unfold State.loadQuartet
  obtain ⟨x0, x1, x2, x3⟩ := c
  cases h0 : s.loadSrc (4 * q) <;> cases h1 : s.loadSrc (4 * q + 1) <;> cases h2 : s.loadSrc (4 * q + 2) <;>
    cases h3 : s.loadSrc (4 * q + 3) <;> simp [bind, Except.bind, pure, Except.pure]

/-- A group is read when the cells of its `k` real bytes are. -/
theorem State.loadGroup_ok {s : State} {q k : Nat} {g : Group} :
    s.loadGroup q k = .ok g ↔
      s.loadSrc (3 * q) = .ok g.b0 ∧ s.loadSrcIf (2 ≤ k) (3 * q + 1) = .ok g.b1 ∧
      s.loadSrcIf (k == 3) (3 * q + 2) = .ok g.b2 := by
  unfold State.loadGroup
  obtain ⟨x0, x1, x2⟩ := g
  cases h0 : s.loadSrc (3 * q) <;> cases h1 : s.loadSrcIf (2 ≤ k) (3 * q + 1) <;>
    cases h2 : s.loadSrcIf (k == 3) (3 * q + 2) <;> simp [bind, Except.bind, pure, Except.pure]

/-! ### Outcomes -/

@[simp] theorem outcomeOf_ok (s : State) : outcomeOf (.ok s) = .next s := rfl

@[simp] theorem outcomeOf_error (f : Fault) : outcomeOf (.error f) = .fault f := rfl

theorem outcomeOf_next {e : Except Fault State} {t : State} : outcomeOf e = .next t ↔ e = .ok t := by
  cases e <;> simp [outcomeOf]

theorem outcomeOf_fault {e : Except Fault State} {f : Fault} : outcomeOf e = .fault f ↔ e = .error f := by
  cases e <;> simp [outcomeOf]

/-- A sequence of effects answers when each of them does. -/
theorem bind_ok {α β : Type} {e : Except Fault α} {f : α → Except Fault β} {b : β} :
    (e >>= f) = .ok b ↔ ∃ a, e = .ok a ∧ f a = .ok b := by
  cases e <;> simp [bind, Except.bind]

/-- A sequence of effects faults in its first part, or in its second after the first answered. -/
theorem bind_error {α β : Type} {e : Except Fault α} {f : α → Except Fault β} {x : Fault} :
    (e >>= f) = .error x ↔ e = .error x ∨ ∃ a, e = .ok a ∧ f a = .error x := by
  cases e <;> simp [bind, Except.bind]

end Sys2Proof.Machine
end

