-- ==== Sys2Proof/Laws/PerInstr.lean ====
section
/-! SUPPORT. Statements made per instruction: the encoding of a well-formed command is a legal word (R86). -/

namespace Sys2Proof.Laws

/-- The encoding of `i` is legal by rule R86's own condition, and its OP field is the one of rule R81. -/
def EncodesLegally.Statement (i : Instr) : Prop :=
  i.wellFormed = true → legalCmd (encode i) = true ∧
    (cmdOp (encode i)).toNat =
      match i with
      | .enclut => 0x1
      | .declut => 0x2
      | .encsize => 0x3
      | .decsize => 0x4
      | .encgrp _ => 0x5
      | .decquad _ => 0x6
      | .encode _ _ _ => 0x8
      | .decode _ _ _ => 0x9

theorem EncodesLegally.enclut : EncodesLegally.Statement .enclut := fun _ => by decide

theorem EncodesLegally.declut : EncodesLegally.Statement .declut := fun _ => by decide

theorem EncodesLegally.encsize : EncodesLegally.Statement .encsize := fun _ => by decide

theorem EncodesLegally.decsize : EncodesLegally.Statement .decsize := fun _ => by decide

theorem EncodesLegally.encgrp (k : BitVec 2) : EncodesLegally.Statement (.encgrp k) := by
  unfold EncodesLegally.Statement
  revert k
  decide

theorem EncodesLegally.decquad (final : Bool) : EncodesLegally.Statement (.decquad final) := by
  unfold EncodesLegally.Statement
  revert final
  decide

theorem EncodesLegally.encode (srcP dstP lenP : Bool) : EncodesLegally.Statement (.encode srcP dstP lenP) := by
  unfold EncodesLegally.Statement
  revert srcP dstP lenP
  decide

theorem EncodesLegally.decode (srcP dstP lenP : Bool) : EncodesLegally.Statement (.decode srcP dstP lenP) := by
  unfold EncodesLegally.Statement
  revert srcP dstP lenP
  decide

end Sys2Proof.Laws
end

