-- ==== Sys2Proof/Laws/Step.lean ====
section
/-! SUPPORT. What a step can do, said once: the agent that moves, and each CORE step taken apart. -/

namespace Sys2Proof.Machine

/-! ### Which agent moves -/

theorem State.choice_iff (s : State) : s.choice = true ↔ s.phase ≠ .idle ∧ s.program ≠ [] := by
  simp [State.choice]

theorem State.nextAgent_core {s : State} (h : s.nextAgent = some .core) : s.phase ≠ .idle := by
  unfold State.nextAgent at h
  split_ifs at h with h1 h2
  · exact ((s.choice_iff).mp h1).1
  · exact (s.busy_iff).mp h2
  · simp at h

theorem State.nextAgent_of_noProgram {s : State} (hb : s.phase ≠ .idle) (hp : s.program = []) :
    s.nextAgent = some .core ∧ s.takeTurn = s := by
  have hc : s.choice = false := by simp [State.choice, hp]
  simp [State.nextAgent, State.takeTurn, hc, hb]

/-- Taking a turn changes `turns` only. -/
theorem State.takeTurn_eq (s : State) : ∃ ts, s.takeTurn = s.setTurns ts := by
  unfold State.takeTurn
  split_ifs
  · exact ⟨_, rfl⟩
  · exact ⟨s.turns, rfl⟩

/-- A step is a wait, a CORE step or a Host step. -/
theorem step_cases (s : State) :
    (s.nextAgent = none ∧ step s = .next s) ∨
    (s.nextAgent = some .core ∧ step s = coreStep s.takeTurn) ∨
    (s.nextAgent = some .host ∧ step s = hostStep s.takeTurn) := by
  unfold step
  rcases s.nextAgent with _ | _ | _ <;> simp

/-- With nothing left for the Host, a step of a busy machine is a CORE step. -/
theorem step_eq_coreStep {s : State} (hb : s.phase ≠ .idle) (hp : s.program = []) : step s = coreStep s := by
  obtain ⟨h1, h2⟩ := State.nextAgent_of_noProgram hb hp
  simp [step, h1, h2]

/-! ### The CORE steps -/

/-- What the START step of a command can answer: it finishes, or it sets an ENCODE or a DECODE going. -/
theorem exec_cases {i : Instr} {s t : State} (h : exec i s = .next t) :
    (∃ st ol r, t = s.finish st ol r) ∨
    ((∃ x y z, i = .encode x y z) ∧ 0 < s.lLen ∧ encodedSize s.lLen ≤ s.lCap ∧ t = s.beginEncode ((s.lLen + 2) / 3)) ∨
    ((∃ x y z, i = .decode x y z) ∧ ∃ p, s.sourcePad = .ok p ∧ t = (s.setPadc p).checkCapacity) := by
  cases i with
  | enclut => exact .inl ⟨_, _, _, (by simpa [exec, execEnclut] using h.symm)⟩
  | declut => exact .inl ⟨_, _, _, (by simpa [exec, execDeclut] using h.symm)⟩
  | encsize => exact .inl ⟨_, _, _, (by simpa [exec, execEncsize] using h.symm)⟩
  | decsize =>
    simp only [exec, execDecsize] at h
    split_ifs at h <;> exact .inl ⟨_, _, _, (by simpa using h.symm)⟩
  | encgrp k =>
    simp only [exec, execEncgrp] at h
    split_ifs at h <;> exact .inl ⟨_, _, _, (by simpa using h.symm)⟩
  | decquad f => exact .inl ⟨_, _, _, (by simpa [exec, execDecquad] using h.symm)⟩
  | encode x y z =>
    simp only [exec, execEncode] at h
    split_ifs at h with h1 h2 h3
    · exact .inl ⟨_, _, _, (by simpa using h.symm)⟩
    · exact .inl ⟨_, _, _, (by simpa using h.symm)⟩
    · exact .inl ⟨_, _, _, (by simpa using h.symm)⟩
    · exact .inr (.inl ⟨⟨x, y, z, rfl⟩, by omega, by omega, by simpa using h.symm⟩)
  | decode x y z =>
    simp only [exec, execDecode] at h
    split_ifs at h with h1 h2
    · exact .inl ⟨_, _, _, (by simpa using h.symm)⟩
    · exact .inl ⟨_, _, _, (by simpa using h.symm)⟩
    · rw [outcomeOf_next, bind_ok] at h
      obtain ⟨p, hp, h⟩ := h
      exact .inr (.inr ⟨⟨x, y, z, rfl⟩, p, hp, by simpa [pure, Except.pure] using h.symm⟩)

/-- A group step that goes on: it read its group and wrote its four characters (R161). -/
theorem encGroupStep_next {s t : State} (h : encGroupStep s = .next t) :
    s.groupLen ≠ 0 ∧ ∃ g, s.loadGroup s.qidx s.groupLen = .ok g ∧ 4 * s.qidx + 4 ≤ s.lenW.cells ∧
      t = (s.putDst (4 * s.qidx) (bytes32 (encGroup g.b0 g.b1 g.b2 s.groupLen))).endGroup := by
  unfold encGroupStep at h
  split_ifs at h with h0
  rw [outcomeOf_next, bind_ok] at h
  obtain ⟨g, hg, h⟩ := h
  rw [bind_ok] at h
  obtain ⟨u, hu, h⟩ := h
  rw [State.storeDst_ok] at hu
  obtain ⟨hle, rfl⟩ := hu
  exact ⟨h0, g, hg, by simpa using hle, by simpa [pure, Except.pure] using h.symm⟩

/-- A body step that goes on: it read its quartet, and wrote three bytes or ended in INV_BODY (R191). -/
theorem decBodyStep_next {s t : State} (h : decBodyStep s = .next t) :
    ∃ c, s.loadQuartet s.qidx = .ok c ∧
      (((decQuartet c.c0 c.c1 c.c2 c.c3 false).status = .ok ∧ 3 * s.qidx + 3 ≤ s.lenW.cells ∧
          t = (s.putDst (3 * s.qidx) (bytes24 (decQuartet c.c0 c.c1 c.c2 c.c3 false).out)).endBody) ∨
        ((decQuartet c.c0 c.c1 c.c2 c.c3 false).status ≠ .ok ∧ t = s.finish .invBody s.wcnt 0)) := by
  unfold decBodyStep at h
  rw [outcomeOf_next, bind_ok] at h
  obtain ⟨c, hc, h⟩ := h
  refine ⟨c, hc, ?_⟩
  dsimp only at h
  split_ifs at h with h0
  · rw [bind_ok] at h
    obtain ⟨u, hu, h⟩ := h
    rw [State.storeDst_ok] at hu
    obtain ⟨hle, rfl⟩ := hu
    exact .inl ⟨h0, by simpa using hle, by simpa [pure, Except.pure] using h.symm⟩
  · exact .inr ⟨h0, by simpa [pure, Except.pure] using h.symm⟩

@[simp] theorem finalBytes_length (r : QuartetOut) : (finalBytes r).length = if 2 ≤ r.nbytes then 2 else 1 := by
  unfold finalBytes
  split_ifs <;> rfl

/-- A final step that goes on: it read its quartet, and wrote one or two bytes or ended in INV_FINAL (R192). -/
theorem decFinalStep_next {s t : State} (h : decFinalStep s = .next t) :
    ∃ c, s.loadQuartet s.qidx = .ok c ∧
      (((decQuartet c.c0 c.c1 c.c2 c.c3 true).status = .ok ∧
          3 * s.qidx + (finalBytes (decQuartet c.c0 c.c1 c.c2 c.c3 true)).length ≤ s.lenW.cells ∧
          t = (s.putDst (3 * s.qidx) (finalBytes (decQuartet c.c0 c.c1 c.c2 c.c3 true))).endFinal
            (decQuartet c.c0 c.c1 c.c2 c.c3 true).nbytes) ∨
        ((decQuartet c.c0 c.c1 c.c2 c.c3 true).status ≠ .ok ∧ t = s.finish .invFinal s.wcnt 0)) := by
  unfold decFinalStep at h
  rw [outcomeOf_next, bind_ok] at h
  obtain ⟨c, hc, h⟩ := h
  refine ⟨c, hc, ?_⟩
  dsimp only at h
  split_ifs at h with h0
  · rw [bind_ok] at h
    obtain ⟨u, hu, h⟩ := h
    rw [State.storeDst_ok] at hu
    obtain ⟨hle, rfl⟩ := hu
    exact .inl ⟨h0, hle, by simpa [pure, Except.pure] using h.symm⟩
  · exact .inr ⟨h0, by simpa [pure, Except.pure] using h.symm⟩

/-- A Host step that goes on: its action answered, and it is over unless it is a WAIT whose DONE is still 0. -/
theorem hostStep_next {s t : State} (h : hostStep s = .next t) :
    (s.program = [] ∧ t = s) ∨
    ∃ op rest u, s.program = op :: rest ∧ hostAct op s = .ok u ∧
      t = if hostOpOver op s then u.setProgram rest else u := by
  unfold hostStep at h
  split at h
  · next hp => exact .inl ⟨hp, by simpa using h.symm⟩
  · next op rest hp =>
    rw [outcomeOf_next, bind_ok] at h
    obtain ⟨u, hu, h⟩ := h
    exact .inr ⟨op, rest, u, hp, hu, by simpa [pure, Except.pure] using h.symm⟩

end Sys2Proof.Machine
end

