-- ==== Sys2Proof/Laws/Sequencer.lean ====
section
/-! SUPPORT. The named parts of the ENCODE and DECODE steps and of the Host's actions, each taken apart once. -/

namespace Sys2Proof.Machine

open Sys2Proof.Safety

/-- The end of a group step: the next group is due, or the command finishes OK (R161). -/
theorem State.endGroup_cases (s : State) :
    (s.fit (s.qidx + 1) ≠ s.nq ∧ s.endGroup = (s.countBytes 4).nextQuartet) ∨
    (s.fit (s.qidx + 1) = s.nq ∧
      s.endGroup = (s.countBytes 4).nextQuartet.finish .ok (s.fit (s.wcnt + 4)) 0) := by
  unfold State.endGroup
  by_cases h : s.fit (s.qidx + 1) = s.nq
  · exact .inr ⟨h, if_pos h⟩
  · exact .inl ⟨h, if_neg h⟩

/-- The end of a body step: the next body quartet is due, or the final one, or the command finishes OK (R191). -/
theorem State.endBody_cases (s : State) :
    (s.fit (s.qidx + 1) ≠ s.nb ∧ s.endBody = (s.countBytes 3).nextQuartet) ∨
    (s.fit (s.qidx + 1) = s.nb ∧ s.padc ≠ 0 ∧ s.endBody = (s.countBytes 3).nextQuartet.enterFinal) ∨
    (s.fit (s.qidx + 1) = s.nb ∧ s.padc = 0 ∧
      s.endBody = (s.countBytes 3).nextQuartet.finish .ok (s.fit (s.wcnt + 3)) 0) := by
  unfold State.endBody
  by_cases h : s.fit (s.qidx + 1) = s.nb
  · by_cases hp : s.padc = 0
    · exact .inr (.inr ⟨h, hp, (if_pos h).trans (if_pos hp)⟩)
    · exact .inr (.inl ⟨h, hp, (if_pos h).trans (if_neg hp)⟩)
  · exact .inl ⟨h, if_neg h⟩

theorem State.endFinal_eq (s : State) (n : Nat) :
    s.endFinal n = (s.countBytes n).finish .ok (s.fit (s.wcnt + n)) 0 := rfl

/-- Step 4 of DECODE's validation: CAPACITY, or the setup (R190). -/
theorem State.checkCapacity_cases (s : State) :
    (s.lCap < maxDecodedSize s.lLen - s.padc.toNat ∧ s.checkCapacity = s.finish .capacity 0 0) ∨
    (maxDecodedSize s.lLen - s.padc.toNat ≤ s.lCap ∧
      s.checkCapacity = s.beginDecode (s.lLen / 4) (s.lLen / 4 - (if 0 < s.padc.toNat then 1 else 0))) := by
  unfold State.checkCapacity
  by_cases h : s.lCap < maxDecodedSize s.lLen - s.padc.toNat
  · exact .inl ⟨h, if_pos h⟩
  · exact .inr ⟨by omega, if_neg h⟩

/-- The padding of a source whose last two cells exist is what those cells show (R190, step 3). -/
theorem State.sourcePad_ok {s : State} {p : BitVec 2} (hn : 0 < s.lLen) (hl : s.lLen < s.lenW.cells) :
    s.sourcePad = .ok p ↔ SourcePad s.src s.lLen p.toNat := by
  have h1 : s.lLen - 1 < s.lenW.cells := by omega
  have h2 : s.lLen - 2 < s.lenW.cells := by omega
  have hp : ∀ k : BitVec 2, k.toNat = p.toNat ↔ k = p := fun k => BitVec.toNat_inj
  have e0 : p.toNat = 0 ↔ (0 : BitVec 2) = p := by rw [← hp]; simp [eq_comm]
  have e1 : p.toNat = 1 ↔ (1 : BitVec 2) = p := by rw [← hp]; simp [eq_comm]
  have e2 : p.toNat = 2 ↔ (2 : BitVec 2) = p := by rw [← hp]; simp [eq_comm]
  unfold State.sourcePad SourcePad State.loadSrc
  rw [e0, e1, e2]
  cases r1 : s.src.read (s.lLen - 1) with
  | none => simp [h1, bind, Except.bind]
  | some a =>
    by_cases ha : a = padChar
    · cases r2 : s.src.read (s.lLen - 2) with
      | none => simp [h1, h2, ha, isPad, bind, Except.bind]
      | some b =>
        by_cases hb : b = padChar <;> simp [h1, h2, ha, hb, isPad, bind, Except.bind, pure, Except.pure]
    · simp [h1, ha, isPad, bind, Except.bind, pure, Except.pure]

/-- A Host access answers when the cell exists (R61). -/
theorem State.ifCell_ok {s t u : State} {i : Nat} : s.ifCell i t = .ok u ↔ i < s.lenW.cells ∧ u = t := by
  unfold State.ifCell
  split_ifs with h <;> simp [h, eq_comm]

/-- What a register write leaves: an accepted command, one operand register changed, or the same state (R24). -/
theorem State.writeReg_cases (s : State) (off : Nat) (v : Word) :
    (off = 0x00 ∧ s.phase = .idle ∧ s.writeReg off v = s.acceptCmd v) ∨
    (off = 0x04 ∧ s.writeReg off v = s.setLen v) ∨ (off = 0x08 ∧ s.writeReg off v = s.setCap v) ∨
    (off = 0x0C ∧ s.writeReg off v = s.setData v) ∨ s.writeReg off v = s := by
  unfold State.writeReg
  split
  · unfold State.writeCmd
    by_cases h : s.phase = .idle
    · exact .inl ⟨rfl, h, by simp [(s.busy_eq_false).mpr h]⟩
    · exact .inr (.inr (.inr (.inr (by simp [(s.busy_iff).mpr h]))))
  · exact .inr (.inl ⟨rfl, rfl⟩)
  · exact .inr (.inr (.inl ⟨rfl, rfl⟩))
  · exact .inr (.inr (.inr (.inl ⟨rfl, rfl⟩)))
  · exact .inr (.inr (.inr (.inr rfl)))

/-- What a Host action that answers does (R62, R88, R260). -/
theorem hostAct_ok {op : HostOp} {s t : State} (h : hostAct op s = .ok t) :
    (∃ off v, op = .writeReg off v ∧ t = s.writeReg off v) ∨
    (∃ r, t = s.logRead r) ∨
    (∃ i b, op = .writeSrc i b ∧ s.phase = .idle ∧ i < s.lenW.cells ∧ t = s.putSrc i b) ∨
    (∃ i b, op = .writeDst i b ∧ s.phase = .idle ∧ i < s.lenW.cells ∧ t = s.putDst i [b]) ∨
    (op = .reset ∧ t = s.resetRegs) := by
  cases op with
  | writeReg off v => exact .inl ⟨off, v, rfl, by simpa [hostAct] using h.symm⟩
  | readReg off => exact .inr (.inl ⟨_, by simpa [hostAct] using h.symm⟩)
  | writeSrc i b =>
    simp only [hostAct] at h
    split_ifs at h with hb
    obtain ⟨hi, rfl⟩ := State.ifCell_ok.mp h
    exact .inr (.inr (.inl ⟨i, b, rfl, by simpa using hb, hi, rfl⟩))
  | readSrc i => exact .inr (.inl ⟨_, (State.ifCell_ok.mp h).2⟩)
  | writeDst i b =>
    simp only [hostAct] at h
    split_ifs at h with hb
    obtain ⟨hi, rfl⟩ := State.ifCell_ok.mp h
    exact .inr (.inr (.inr (.inl ⟨i, b, rfl, by simpa using hb, hi, rfl⟩)))
  | readDst i => exact .inr (.inl ⟨_, (State.ifCell_ok.mp h).2⟩)
  | wait => exact .inr (.inl ⟨_, by simpa [hostAct] using h.symm⟩)
  | reset => exact .inr (.inr (.inr (.inr ⟨rfl, by simpa [hostAct] using h.symm⟩)))

end Sys2Proof.Machine
end

