-- ==== Sys2Proof/Laws/Tables.lean ====
section
/-! SUPPORT. What a lookup in the ROMs gives, for use in place of their contents. -/

namespace Sys2Proof.Machine

/-- The character of a 6-bit field decodes to that field (R119). -/
@[simp] theorem val_encField : ∀ v : BitVec 6, val (encField v) = v := by decide

/-- The character of a 6-bit field is a legal symbol (R119). -/
@[simp] theorem legal_encField : ∀ v : BitVec 6, legal (encField v) = true := by decide

/-- No symbol is the padding character (R110). -/
@[simp] theorem encField_ne_padChar : ∀ v : BitVec 6, encField v ≠ padChar := by decide

@[simp] theorem legal_padChar : legal padChar = false := by decide

@[simp] theorem val_padChar : val padChar = 0 := by decide

@[simp] theorem isPad_iff (x : Byte) : isPad x = true ↔ x = padChar := by simp [isPad]

end Sys2Proof.Machine
end

