-- ==== Sys2Proof/Tests/Slice0.lean ====
section
/-! SUPPORT. Tests of the model against the words of the encoding rules and the vectors of 95_test_vectors.md (all at
LEN_W = 16), and for each statement with hypotheses a state and operands that meet them. -/

namespace Sys2Proof.Tests

open Sys2Proof.Machine Sys2Proof.Safety

/-! ### Helpers -/

/-- The power-on state at LEN_W = 16. -/
def base : State := State.powerOn LenW.sixteen

/-- A buffer holding the given bytes from index 0. -/
def buffer (bs : List Byte) : Memory := Memory.writeList [] 0 bs

/-- The command word `w` accepted with LEN, CAP, DATA and SRC as given. -/
def started (w : Word) (len cap : Nat) (data : Word) (src : List Byte) : State :=
  { base with len := len, cap := cap, data := data, src := buffer src }.acceptCmd w

/-- STATUS, OUT_LEN and RESULT after a step. -/
def report : Host.Outcome State Fault Refusal → Option (Status × Nat × Word)
  | .next s => some (s.status, s.outLen, s.result)
  | _ => none

/-- PHASE and the cells of DST after a step. -/
def written : Host.Outcome State Fault Refusal → Option (Phase × Memory)
  | .next s => some (s.phase, s.dst)
  | _ => none

/-- The fault a step ends in. -/
def faultOf : Host.Outcome State Fault Refusal → Option Fault
  | .fault f => some f
  | _ => none

/-- `foob`, `Zm9vYg==`, `Zm9v` and `TWE=` as bytes (R13). -/
def foob : List Byte := [0x66, 0x6F, 0x6F, 0x62]
def zm9vYgPad : List Byte := [0x5A, 0x6D, 0x39, 0x76, 0x59, 0x67, 0x3D, 0x3D]
def zm9v : List Byte := [0x5A, 0x6D, 0x39, 0x76]
def twePad : List Byte := [0x54, 0x57, 0x45, 0x3D]

/-- ENCODE of "foob" after its START step: group 0 is due (program P1). -/
def encodingFirst : State := { started 0x78 4 8 0 foob with nq := 2, phase := .encGrp }

/-- The same, with group 1, of one byte, due. -/
def encodingLast : State := { encodingFirst with dst := buffer zm9v, qidx := 1, wcnt := 4 }

/-- DECODE of "Zm9vYg==" after its START step: body quartet 0 is due. -/
def decodingBody : State :=
  { started 0x79 8 4 0 zm9vYgPad with nq := 2, nb := 1, padc := 2, phase := .decBody }

/-- The same, with the final quartet `Yg==` due. -/
def decodingFinal : State :=
  { decodingBody with dst := buffer [0x66, 0x6F, 0x6F], qidx := 1, wcnt := 3, phase := .decFinal }

/-- DECODE of "Zm9v" after its START step: its one quartet is a body quartet. -/
def decodingWhole : State := { started 0x79 4 3 0 zm9v with nq := 1, nb := 1, padc := 0, phase := .decBody }

/-- DECODE of "TWE=" after its START step: its one quartet is the final one. -/
def decodingOnlyFinal : State := { started 0x79 4 2 0 twePad with nq := 1, nb := 0, padc := 1, phase := .decFinal }

/-! ### WellFormed (R84) -/

theorem test_wellFormed_refuses_group_of_none : (Instr.encgrp 0).wellFormed = false := by decide

theorem test_wellFormed_accepts_groups :
    (Instr.encgrp 1).wellFormed = true ∧ (Instr.encgrp 2).wellFormed = true ∧ (Instr.encgrp 3).wellFormed = true := by
  decide

/-! ### Words written out bit by bit from R80, R81, R82 and R84 -/

theorem test_decode_enclut : decode 0b00000000000000000000000000000001 = .ok .enclut := by decide

theorem test_decode_declut : decode 0b00000000000000000000000000000010 = .ok .declut := by decide

theorem test_decode_encsize : decode 0b00000000000000000000000000000011 = .ok .encsize := by decide

theorem test_decode_decsize : decode 0b00000000000000000000000000000100 = .ok .decsize := by decide

theorem test_decode_encgrp_two : decode 0b00000000000000000000001000000101 = .ok (.encgrp 2) := by decide

theorem test_decode_decquad_final : decode 0b00000000000000000000000100000110 = .ok (.decquad true) := by decide

theorem test_decode_encode_no_dst : decode 0b00000000000000000000000001011000 = .ok (.encode true false true) := by decide

theorem test_decode_decode_no_len : decode 0b00000000000000000000000000111001 = .ok (.decode true true false) := by decide

/-- The reserved words of 95_test_vectors.md, 2.7. -/
theorem test_decode_reserved :
    decode 0x00000000 = .error .reservedOp ∧ decode 0x00000007 = .error .reservedOp ∧
    decode 0x0000000A = .error .reservedOp ∧ decode 0x0000000F = .error .reservedOp ∧
    decode 0x00000011 = .error .reservedBit ∧ decode 0x00000081 = .error .reservedBit ∧
    decode 0x00000401 = .error .reservedBit ∧ decode 0x80000079 = .error .reservedBit ∧
    decode 0x00000279 = .error .reservedBit ∧ decode 0x00000005 = .error .emptyGroup := by decide

/-! ### The vectors of 95_test_vectors.md, part 2 -/

theorem test_enclut_ignores_upper_data :
    report (coreStep (started 0x1 0 0 0xFFFFFF05 [])) = some (.ok, 0, 0x00000046) := by decide

theorem test_enclut_above_63 : report (coreStep (started 0x1 0 0 0x00000040 [])) = some (.ok, 0, 0) := by decide

theorem test_declut_pad : report (coreStep (started 0x2 0 0 0x0000003D [])) = some (.ok, 0, 0x00000040) := by decide

theorem test_declut_url_safe : report (coreStep (started 0x2 0 0 0x0000005F [])) = some (.ok, 0, 0x00000080) := by decide

theorem test_encsize_needs_17_bits : report (coreStep (started 0x3 65535 0 0 [])) = some (.ok, 0, 87380) := by decide

theorem test_decsize_of_zero : report (coreStep (started 0x4 0 0 0 [])) = some (.ok, 0, 0) := by decide

theorem test_decsize_of_three : report (coreStep (started 0x4 3 0 0 [])) = some (.length, 0, 0) := by decide

theorem test_encgrp_two_ignores_b2 :
    report (coreStep (started 0x205 0 0 0x004D61FF [])) = some (.ok, 4, 0x5457453D) := by decide

theorem test_encgrp_one_uses_b0 :
    report (coreStep (started 0x105 0 0 0xAA4DBBCC [])) = some (.ok, 4, 0x54513D3D) := by decide

theorem test_decquad_body : report (coreStep (started 0x006 0 0 0x54574675 [])) = some (.ok, 3, 0x004D616E) := by decide

theorem test_decquad_illegal_c2 :
    report (coreStep (started 0x106 0 0 0x5A6D2A3D [])) = some (.invFinal, 0, 0) := by decide

theorem test_encode_capacity : report (coreStep (started 0x78 4 7 0 foob)) = some (.capacity, 0, 0) := by decide

theorem test_encode_last_group :
    written (coreStep encodingLast) = some (.idle, buffer zm9vYgPad) := by decide

theorem test_decode_param_beats_length : report (coreStep (started 0x79 7 0 0 zm9v)) = some (.param, 0, 0) := by decide

theorem test_decode_final_quartet :
    written (coreStep decodingFinal) = some (.idle, buffer foob) := by decide

theorem test_illegal_word_is_bad_op : report (coreStep (started 0x80000079 4 4 0 zm9v)) = some (.badOp, 0, 0) := by decide

/-- Program P6: the START step of a DECODE whose source was never loaded. -/
theorem test_unloaded_source_faults : faultOf (step (started 0x79 4 3 0 [])) = some .srcUnwritten := by decide

/-- STAT after a finish in LENGTH (the table of 95_test_vectors.md's conventions). -/
theorem test_stat_after_length : (base.finish .length 0 0).stat = 0x00000032 := by decide

/-- The host's probe word of the table's ENCODE row runs as the first command after reset. -/
theorem test_placed_word_runs :
    step (State.reset.withFetchWord 32 0x8) = exec (.encode false false false) (State.reset.acceptCmd 0x8) := rfl

/-! ### Witnesses: the invariant -/

theorem witness_inv_encoding : Inv encodingFirst ∧ Inv encodingLast :=
  ⟨⟨by decide, by decide, by decide, by decide, by decide⟩, by decide, by decide, by decide, by decide, by decide⟩

theorem witness_inv_decodingBody : Inv decodingBody ∧ Inv decodingWhole :=
  ⟨⟨by decide, by decide, by decide, by decide, by decide⟩, by decide, by decide, by decide, by decide, by decide⟩

theorem witness_inv_decodingFinal : Inv decodingFinal ∧ Inv decodingOnlyFinal :=
  ⟨⟨by decide, by decide, by decide, by decide, by decide⟩, by decide, by decide, by decide, by decide, by decide⟩

theorem witness_inv_started : Inv (started 0x79 8 4 0 zm9vYgPad) ∧ Inv (started 0x79 4 3 0 []) :=
  ⟨⟨by decide, by decide, by decide, by decide, by decide⟩, by decide, by decide, by decide, by decide, by decide⟩

/-- An idle state with DONE = 1, for DoneResultsStay. -/
theorem witness_inv_done : Inv (base.finish .ok 0 0) ∧ (base.finish .ok 0 0).done = true ∧
    ∃ t, step (base.finish .ok 0 0) = .next t :=
  ⟨⟨by decide, by decide, by decide, by decide, by decide⟩, by decide, _, rfl⟩

/-! ### Witnesses: encoding -/

theorem witness_DecodeEncodeAgree : (Instr.encgrp 1).wellFormed = true ∧ (Instr.encgrp 3).wellFormed = true := by decide

theorem witness_DecodedWordIsEncoding :
    decode 0x00000305 = .ok (.encgrp 3) ∧ decode 0x00000008 = .ok (.encode false false false) := by decide

theorem witness_ReservedWordsEndInBadOp :
    legalCmd (started 0x0 0 0 0 []).lCmd = false ∧ legalCmd (started 0x5 0 0 0 []).lCmd = false ∧
    legalCmd (started 0x206 0 0 0 []).lCmd = false ∧ legalCmd (started 0x400 0 0 0 []).lCmd = false := by decide

theorem witness_StepRunsDecodedCommand :
    (started 0x1 0 0 0 []).phase = .start ∧ decode (started 0x1 0 0 0 []).lCmd = .ok .enclut ∧
    (started 0x1 0 0 0 []).nextAgent = some .core ∧
    ((started 0x1 0 0 0 []).setProgram [.wait]).nextAgent = some .core := by decide

theorem witness_StepRunsPlacedWord : decodeTableWord 32 0x1 = some .enclut ∧ decodeTableWord 32 0x8F = none := by decide

theorem witness_CmdWriteAcceptedOrIgnored : base.phase = .idle ∧ encodingFirst.phase ≠ .idle := by decide

/-! ### Witnesses: sizes and tables, each clause at the ends of its range -/

theorem witness_EncRomFormula :
    (25 : Byte).toNat ≤ 25 ∧ 26 ≤ (26 : Byte).toNat ∧ (51 : Byte).toNat ≤ 51 ∧ 52 ≤ (52 : Byte).toNat ∧
    (61 : Byte).toNat ≤ 61 ∧ (62 : Byte).toNat = 62 ∧ (63 : Byte).toNat = 63 ∧ 64 ≤ (64 : Byte).toNat := by decide

theorem witness_DecRomContents : (0x2D : Byte) ≠ 0x3D ∧ ∀ i : BitVec 6, (0x2D : Byte) ≠ encField i := by decide

theorem witness_LegalPadVal : legal 0x2A = false ∧ legal 0x41 = true := by decide

theorem witness_EncodedSizeExact : 65535 < LenW.sixteen.cells ∧ 15 < (⟨0⟩ : LenW).cells := by decide

theorem witness_MaxDecodedSizeCases : 0 % 4 = 0 ∧ 3 % 4 ≠ 0 ∧ lenErr (4#16).toNat = false := by decide

theorem witness_EncsizeResult :
    (started 0x3 0 0 0 []).lLen = 0 ∧ (started 0x3 65535 0 0 []).lLen < (started 0x3 65535 0 0 []).lenW.cells := by decide

theorem witness_EnclutResult : 64 ≤ ((started 0x1 0 0 0x40 []).lData.extractLsb' 0 8).toNat := by decide

theorem witness_DecsizeResult : (started 0x4 3 0 0 []).lLen % 4 ≠ 0 ∧ (started 0x4 0 0 0 []).lLen % 4 = 0 := by decide

theorem witness_EncgrpResult : (1 : BitVec 2) ≠ 0 ∧ (3 : BitVec 2) ≠ 0 := by decide

/-- The three clauses of the quartet transform: no padding, one `=`, two `=`. -/
theorem witness_QuartetTransform :
    ((0x43 : Byte) ≠ 0x3D) ∧ ((0x3D : Byte) = 0x3D ∧ (0x38 : Byte) ≠ 0x3D) ∧
    (decQuartet 0x5A 0x6D 0x38 0x3D true = ⟨.ok, 2, 0x666F00⟩) ∧
    (decQuartet 0x54 0x51 0x3D 0x3D true = ⟨.ok, 1, 0x4D0000⟩) := by decide

theorem witness_DecquadResult : (decQuartet 0x3D 0x3D 0x3D 0x3D true).status ≠ .ok := by decide

/-! ### Witnesses: ENCODE and DECODE -/

/-- ENCODE's clauses: the capacity is one short, exactly enough, and enough for nothing. -/
theorem witness_EncodeStart :
    (started 0x78 4 7 0 foob).lCap < encodedSize (started 0x78 4 7 0 foob).lLen ∧
    (encodedSize (started 0x78 4 8 0 foob).lLen ≤ (started 0x78 4 8 0 foob).lCap ∧
      0 < (started 0x78 4 8 0 foob).lLen ∧ (started 0x78 4 8 0 foob).lLen < (started 0x78 4 8 0 foob).lenW.cells) ∧
    (started 0x78 0 0 0 []).lLen = 0 := by decide

/-- DECODE's clauses: PARAM, LENGTH, and for each padding the capacity one short and exactly enough. -/
theorem witness_DecodeStart :
    (started 0x79 0 4 0 []).lLen = 0 ∧ (started 0x79 4 0 0 zm9v).lCap = 0 ∧ (started 0x79 7 1 0 zm9v).lLen % 4 ≠ 0 ∧
    SourcePad (buffer zm9v) 4 0 ∧ SourcePad (buffer twePad) 4 1 ∧ SourcePad (buffer zm9vYgPad) 8 2 ∧
    (started 0x79 8 3 0 zm9vYgPad).lCap < (started 0x79 8 3 0 zm9vYgPad).lLen / 4 * 3 - (2 : BitVec 2).toNat ∧
    (started 0x79 8 4 0 zm9vYgPad).lLen / 4 * 3 - (2 : BitVec 2).toNat ≤ (started 0x79 8 4 0 zm9vYgPad).lCap ∧
    (started 0x79 8 4 0 zm9vYgPad).lLen < (started 0x79 8 4 0 zm9vYgPad).lenW.cells := by decide

/-- Groups of three bytes and of one, each with the reads the statement asks for. -/
theorem witness_EncodeGroupStep :
    (encodingFirst.phase = .encGrp ∧ encodingFirst.src.read 0 = some 0x66 ∧
      2 ≤ encodingFirst.lLen - 3 * encodingFirst.qidx ∧ encodingFirst.src.read 1 = some 0x6F ∧
      3 ≤ encodingFirst.lLen - 3 * encodingFirst.qidx ∧ encodingFirst.src.read 2 = some 0x6F) ∧
    encodingLast.phase = .encGrp ∧ encodingLast.src.read (3 * encodingLast.qidx) = some 0x62 ∧
      ¬ 2 ≤ encodingLast.lLen - 3 * encodingLast.qidx ∧ ¬ 3 ≤ encodingLast.lLen - 3 * encodingLast.qidx := by decide

theorem witness_DecodeBodyStep :
    decodingBody.phase = .decBody ∧ decodingBody.src.read 0 = some 0x5A ∧ decodingBody.src.read 1 = some 0x6D ∧
    decodingBody.src.read 2 = some 0x39 ∧ decodingBody.src.read 3 = some 0x76 ∧
    (legal 0x5A ∧ legal 0x6D ∧ legal 0x39 ∧ legal 0x76) ∧ ¬ (legal 0x5A ∧ legal 0x6D ∧ legal 0x39 ∧ legal 0x2A) := by
  decide

theorem witness_DecodeFinalStep :
    decodingFinal.phase = .decFinal ∧ decodingFinal.src.read 4 = some 0x59 ∧ decodingFinal.src.read 5 = some 0x67 ∧
    decodingFinal.src.read 6 = some 0x3D ∧ decodingFinal.src.read 7 = some 0x3D ∧
    (legal 0x59 ∧ legal 0x67 ∧ (decodingFinal.padc = 1 → legal 0x3D)) ∧
    (decodingOnlyFinal.padc = 1 ∧ legal 0x45) ∧ ¬ legal 0x3D := by decide

/-! ### Witnesses: frames and noninterference -/

theorem witness_CommandFrame : ∃ t, exec .enclut base = .next t := ⟨_, rfl⟩

theorem witness_SequencerFrame :
    encodingFirst.phase ≠ .start ∧ (written (coreStep encodingFirst)).isSome = true ∧
    (written (coreStep decodingBody)).isSome = true ∧ (written (coreStep decodingFinal)).isSome = true := by decide

theorem witness_CoreReadsOnlyLatchedLength :
    ∀ i < encodingFirst.lLen, ((buffer foob).write 9 0x21).read i = encodingFirst.src.read i := by decide

theorem witness_OperandWriteWhileBusy : decodingBody.phase ≠ .idle ∧ (started 0x1 0 0 0 []).phase ≠ .idle := by decide

/-! ### Witnesses: the Host and reset -/

theorem witness_RegisterMap :
    (0x1C : Nat) ≠ 0x00 ∧ base.readReg 0x1C = 0 ∧ base.readReg 0x05 = 0 ∧ (base.setData 0x7).readReg 0x0C = 0x7 := by decide

theorem witness_ReadOnlyWritesIgnored :
    hostAct (.writeReg 0x10 7) base = .ok base ∧ hostAct (.writeReg 0x14 7) base = .ok base ∧
    hostAct (.writeReg 0x18 7) base = .ok base ∧ hostAct (.writeReg 0x1C 7) base = .ok base := by decide

theorem witness_HostBufferAccess :
    65535 < base.lenW.cells ∧ base.phase = .idle ∧ 0 < encodingFirst.lenW.cells ∧ encodingFirst.phase ≠ .idle := by decide

theorem witness_BusyBufferWriteFaults :
    let s := (encodingFirst.setProgram [.writeSrc 0 1]).setTurns [.host]
    s.phase ≠ .idle ∧ s.nextAgent = some .host ∧ s.program = [.writeSrc 0 1] ∧ faultOf (step s) = some .srcWriteBusy := by
  decide

theorem witness_WaitPollsUntilDone :
    ((base.setProgram [.wait]).phase = .idle) ∧
    ((encodingFirst.setProgram [.wait]).setTurns [.host]).turns.head? = some .host := by decide

theorem witness_BusyCoreIsEnabled :
    (base.phase = .idle ∧ base.program = []) ∧ (encodingFirst.phase ≠ .idle ∧ encodingFirst.program = []) ∧
    ((encodingFirst.setProgram [.wait]).turns = []) := by decide

theorem witness_ResetAbandonsOperation :
    let s := (encodingLast.setProgram [.reset]).setTurns [.host]
    s.phase ≠ .idle ∧ s.program = [.reset] ∧ s.nextAgent = some .host := by decide

/-! ### Witnesses: faults -/

/-- DECODE with no source loaded, with only the last character loaded, and a group and a quartet with a hole. -/
theorem witness_UnwrittenSourceFaults :
    ((started 0x79 4 3 0 []).phase = .start ∧ (started 0x79 4 3 0 []).src.read 3 = none) ∧
    (({ started 0x79 4 3 0 [] with src := [(3, 0x3D)] }).src.read 3 = some 0x3D ∧
      ({ started 0x79 4 3 0 [] with src := [(3, 0x3D)] }).src.read 2 = none) ∧
    ({ encodingFirst with src := [(0, 0x66)] }).src.read 2 = none ∧
    ({ decodingBody with src := [(6, 0x3D), (7, 0x3D)] }).src.read 0 = none := by decide

theorem witness_inv_unwritten :
    Inv { encodingFirst with src := [(0, 0x66)] } ∧ Inv { decodingBody with src := [(6, 0x3D), (7, 0x3D)] } ∧
    Inv { started 0x79 4 3 0 [] with src := [(3, 0x3D)] } :=
  ⟨⟨by decide, by decide, by decide, by decide, by decide⟩,
    ⟨by decide, by decide, by decide, by decide, by decide⟩, by decide, by decide, by decide, by decide, by decide⟩

theorem witness_LoadedCoreNeverStops :
    Loaded encodingFirst ∧ faultOf (coreStep { encodingFirst with src := [(0, 0x66)] }) = some .srcUnwritten := by decide

theorem witness_FaultsAreRecordedForGood :
    faultOf (step (Run.mk (started 0x79 4 3 0 []) []).state) = some .srcUnwritten ∧
    Fault.srcUnwritten ∈ (Run.mk base [.srcUnwritten]).faults := by decide

theorem witness_FailingStepRecords :
    ({ decodingBody with src := buffer [0x2A, 0x6D, 0x39, 0x76, 0x59, 0x67, 0x3D, 0x3D] }).phase ≠ .idle ∧
    report (coreStep { decodingBody with src := buffer [0x2A, 0x6D, 0x39, 0x76, 0x59, 0x67, 0x3D, 0x3D] }) =
      some (.invBody, 0, 0) ∧
    report (coreStep (started 0x4 3 0 0 [])) = some (.length, 0, 0) := by decide

/-! ### Witnesses: invariants and whole operations -/

theorem witness_StepKeepsShape : WellShaped base := by decide

theorem witness_ResultsChangeOnlyAtFinish :
    (∃ t, step base = .next t) ∧ (∃ t, step (started 0x3 4 0 0 []) = .next t) ∧
    ∃ t, step (base.setProgram [.reset]) = .next t := ⟨⟨_, rfl⟩, ⟨_, rfl⟩, _, rfl⟩

theorem witness_StepKeepsInvariant : ∃ t, step base = .next t := ⟨_, rfl⟩

theorem witness_PhaseTransitions :
    (written (coreStep (started 0x78 4 8 0 foob))).isSome = true ∧
    (written (coreStep (started 0x79 8 4 0 zm9vYgPad))).isSome = true ∧
    (written (coreStep decodingWhole)).isSome = true ∧ (written (coreStep decodingOnlyFinal)).isSome = true := by decide

/-- ENCODE of "foob": the capacity is exactly enough, one short, and the source empty. -/
theorem witness_EncodeTotals :
    (started 0x78 4 8 0 foob).phase = .start ∧ (started 0x78 4 8 0 foob).lCmd = 0x78 ∧
    (started 0x78 4 8 0 foob).program = [] ∧ (started 0x78 4 8 0 foob).lLen = foob.length ∧
    Holds (started 0x78 4 8 0 foob).src foob ∧
    encodedSize (started 0x78 4 8 0 foob).lLen ≤ (started 0x78 4 8 0 foob).lCap ∧
    (started 0x78 4 7 0 foob).lCap < encodedSize (started 0x78 4 7 0 foob).lLen ∧
    (started 0x78 0 0 0 []).lLen = 0 ∧ encodeBytes foob = zm9vYgPad := by decide

/-- DECODE of "Zm9vYg==": the capacity is exactly enough and one short, and the length no multiple of 4. -/
theorem witness_DecodeTotals :
    (started 0x79 8 4 0 zm9vYgPad).phase = .start ∧ (started 0x79 8 4 0 zm9vYgPad).lCmd = 0x79 ∧
    (started 0x79 8 4 0 zm9vYgPad).program = [] ∧ (started 0x79 8 4 0 zm9vYgPad).lLen = zm9vYgPad.length ∧
    Holds (started 0x79 8 4 0 zm9vYgPad).src zm9vYgPad ∧ SourcePad (started 0x79 8 4 0 zm9vYgPad).src 8 2 ∧
    8 / 4 * 3 - 2 ≤ (started 0x79 8 4 0 zm9vYgPad).lCap ∧ (started 0x79 8 3 0 zm9vYgPad).lCap < 8 / 4 * 3 - 2 ∧
    (started 0x79 7 4 0 (zm9vYgPad.take 7)).lLen % 4 ≠ 0 ∧
    decodeChars zm9vYgPad = (.ok, foob) ∧ quartetsExamined zm9vYgPad = 2 := by decide

theorem witness_OperationsTerminate :
    Loaded (started 0x79 8 4 0 zm9vYgPad) ∧ (started 0x79 8 4 0 zm9vYgPad).phase ≠ .idle ∧
    (started 0x79 8 4 0 zm9vYgPad).program = [] := by decide

theorem witness_MachineRoundTrip :
    (started 0x78 4 8 0 foob).phase = .start ∧ 0 < (started 0x78 4 8 0 foob).lLen ∧
    (started 0x78 4 8 0 foob).lLen ≤ 4 ∧ 4 < (started 0x78 4 8 0 foob).lenW.cells ∧
    Holds (started 0x78 4 8 0 foob).src foob := by decide

theorem witness_EncodedCharactersLegal : (encodeBytes foob)[6]? = some 0x3D := by decide

theorem witness_PaddingPlacement :
    (zm9vYgPad.length % 4 = 0 ∧ (decodeChars zm9vYgPad).1 = .ok ∧ zm9vYgPad[6]? = some 0x3D) ∧
    ([0x41, 0x42, 0x3D, 0x43] : List Byte)[2]? = some 0x3D ∧
    (decodeChars [0x41, 0x42, 0x3D, 0x43]).1 = .invBody ∧ (decodeChars [0x41, 0x3D, 0x3D, 0x3D]).1 = .invFinal := by
  decide

end Sys2Proof.Tests
end

section
/-! PROOFS. Every step keeps the shape of the state: one rule per named update, one per part of a CORE step or of a
Host action, and the step assembled from them. -/

namespace Sys2Proof.Machine

open Sys2Proof.Safety

/-- `t` is well shaped and of the same build, provided `s` is well shaped: what O49 says of the ends of a step. -/
def KeepsShape (s t : State) : Prop := WellShaped s → WellShaped t ∧ t.lenW = s.lenW

/-- The part of `WellShaped` that is about registers: every LEN_W-bit register holds a LEN_W-bit value (R6, R20). -/
def RegistersFit (s : State) : Prop :=
  s.len < s.lenW.cells ∧ s.cap < s.lenW.cells ∧ s.outLen < s.lenW.cells ∧
  s.lLen < s.lenW.cells ∧ s.lCap < s.lenW.cells ∧
  s.qidx < s.lenW.cells ∧ s.nq < s.lenW.cells ∧ s.nb < s.lenW.cells ∧ s.wcnt < s.lenW.cells

namespace KeepsShape

theorem refl (s : State) : KeepsShape s s := fun h => ⟨h, rfl⟩

theorem trans {s t u : State} (hst : KeepsShape s t) (htu : KeepsShape t u) : KeepsShape s u := fun h => by
  obtain ⟨ht, hw⟩ := hst h
  obtain ⟨hu, hw'⟩ := htu ht
  exact ⟨hu, hw'.trans hw⟩

/-- An update that leaves LEN_W and the buffers alone has to answer for the registers only. -/
theorem of_registersFit {s t : State} (hw : t.lenW = s.lenW) (hsrc : t.src = s.src) (hdst : t.dst = s.dst)
    (hregs : RegistersFit s → RegistersFit t) : KeepsShape s t := by
  rintro ⟨wfSrc, wfDst, boundSrc, boundDst, fits⟩
  refine ⟨⟨?_, ?_, ?_, ?_, hregs fits⟩, hw⟩
  · rwa [hsrc]
  · rwa [hdst]
  · rwa [hsrc, hw]
  · rwa [hdst, hw]

/-! ### The named updates -/

section Updates

variable {s : State}

/-! These write neither a buffer nor a LEN_W-bit register. -/

theorem setData {v : Word} : KeepsShape s (s.setData v) := fun h => ⟨h, rfl⟩

theorem setPadc {p : BitVec 2} : KeepsShape s (s.setPadc p) := fun h => ⟨h, rfl⟩

theorem enterFinal : KeepsShape s s.enterFinal := fun h => ⟨h, rfl⟩

theorem setProgram {ops : List HostOp} : KeepsShape s (s.setProgram ops) := fun h => ⟨h, rfl⟩

theorem logRead {r : HostRead} : KeepsShape s (s.logRead r) := fun h => ⟨h, rfl⟩

theorem setTurns {ts : List Agent} : KeepsShape s (s.setTurns ts) := fun h => ⟨h, rfl⟩

/-! These write LEN_W-bit registers: each value is cut by `fit`, copied from another such register, or 0. -/

theorem finish {st : Status} {ol : Nat} {r : Word} : KeepsShape s (s.finish st ol r) :=
  of_registersFit rfl rfl rfl fun h => by simp_all [RegistersFit, State.fit_lt]

theorem acceptCmd {w : Word} : KeepsShape s (s.acceptCmd w) :=
  of_registersFit rfl rfl rfl fun h => by simp_all [RegistersFit]

theorem setLen {v : Word} : KeepsShape s (s.setLen v) :=
  of_registersFit rfl rfl rfl fun h => by simp_all [RegistersFit, State.fit_lt]

theorem setCap {v : Word} : KeepsShape s (s.setCap v) :=
  of_registersFit rfl rfl rfl fun h => by simp_all [RegistersFit, State.fit_lt]

theorem beginEncode {groups : Nat} : KeepsShape s (s.beginEncode groups) :=
  of_registersFit rfl rfl rfl fun h => by simp_all [RegistersFit, State.fit_lt, LenW.cells_pos]

theorem beginDecode {quartets bodies : Nat} : KeepsShape s (s.beginDecode quartets bodies) :=
  of_registersFit rfl rfl rfl fun h => by simp_all [RegistersFit, State.fit_lt, LenW.cells_pos]

theorem countBytes {n : Nat} : KeepsShape s (s.countBytes n) :=
  of_registersFit rfl rfl rfl fun h => by simp_all [RegistersFit, State.fit_lt]

theorem nextQuartet : KeepsShape s s.nextQuartet :=
  of_registersFit rfl rfl rfl fun h => by simp_all [RegistersFit, State.fit_lt]

theorem resetRegs : KeepsShape s s.resetRegs :=
  of_registersFit rfl rfl rfl fun h => by simp_all [RegistersFit, LenW.cells_pos]

end Updates

/-! ### The buffer writes -/

theorem putSrc {s : State} {i : Nat} {b : Byte} (hi : i < s.lenW.cells) : KeepsShape s (s.putSrc i b) := by
  rintro ⟨wfSrc, wfDst, boundSrc, boundDst, fits⟩
  exact ⟨⟨Memory.wf_write wfSrc i b, wfDst, Memory.bound_write boundSrc hi, boundDst, fits⟩, rfl⟩

theorem putDst {s : State} {i : Nat} {bs : List Byte} (hi : i + bs.length ≤ s.lenW.cells) :
    KeepsShape s (s.putDst i bs) := by
  rintro ⟨wfSrc, wfDst, boundSrc, boundDst, fits⟩
  exact ⟨⟨wfSrc, Memory.wf_writeList bs wfDst i, boundSrc, Memory.bound_writeList bs boundDst hi, fits⟩, rfl⟩

/-! ### The CORE steps -/

theorem endGroup {s : State} : KeepsShape s s.endGroup := by
  have counted : KeepsShape s (s.countBytes 4).nextQuartet := countBytes.trans nextQuartet
  rcases s.endGroup_cases with ⟨-, h⟩ | ⟨-, h⟩ <;> rw [h]
  · exact counted
  · exact counted.trans finish

theorem endBody {s : State} : KeepsShape s s.endBody := by
  have counted : KeepsShape s (s.countBytes 3).nextQuartet := countBytes.trans nextQuartet
  rcases s.endBody_cases with ⟨-, h⟩ | ⟨-, -, h⟩ | ⟨-, -, h⟩ <;> rw [h]
  · exact counted
  · exact counted.trans enterFinal
  · exact counted.trans finish

theorem endFinal {s : State} {n : Nat} : KeepsShape s (s.endFinal n) := by
  rw [State.endFinal_eq]
  exact countBytes.trans finish

theorem checkCapacity {s : State} : KeepsShape s s.checkCapacity := by
  rcases s.checkCapacity_cases with ⟨-, h⟩ | ⟨-, h⟩ <;> rw [h]
  · exact finish
  · exact beginDecode

theorem of_exec {i : Instr} {s t : State} (h : exec i s = .next t) : KeepsShape s t := by
  rcases exec_cases h with ⟨st, ol, r, rfl⟩ | ⟨-, -, -, rfl⟩ | ⟨-, p, -, rfl⟩
  · exact finish
  · exact beginEncode
  · exact setPadc.trans checkCapacity

theorem of_startStep {s t : State} (h : startStep s = .next t) : KeepsShape s t := by
  unfold startStep at h
  split at h
  · exact of_exec h
  · cases h
    exact finish

theorem of_encGroupStep {s t : State} (h : encGroupStep s = .next t) : KeepsShape s t := by
  obtain ⟨-, g, -, hfits, rfl⟩ := encGroupStep_next h
  exact (putDst hfits).trans endGroup

theorem of_decBodyStep {s t : State} (h : decBodyStep s = .next t) : KeepsShape s t := by
  obtain ⟨c, -, ⟨-, hfits, rfl⟩ | ⟨-, rfl⟩⟩ := decBodyStep_next h
  · exact (putDst hfits).trans endBody
  · exact finish

theorem of_decFinalStep {s t : State} (h : decFinalStep s = .next t) : KeepsShape s t := by
  obtain ⟨c, -, ⟨-, hfits, rfl⟩ | ⟨-, rfl⟩⟩ := decFinalStep_next h
  · exact (putDst hfits).trans endFinal
  · exact finish

theorem of_coreStep {s t : State} (h : coreStep s = .next t) : KeepsShape s t := by
  unfold coreStep at h
  cases hp : s.phase <;> rw [hp] at h
  case idle =>
    cases h
    exact refl _
  case start => exact of_startStep h
  case encGrp => exact of_encGroupStep h
  case decBody => exact of_decBodyStep h
  case decFinal => exact of_decFinalStep h

/-! ### The Host steps -/

theorem writeReg {s : State} {off : Nat} {v : Word} : KeepsShape s (s.writeReg off v) := by
  rcases s.writeReg_cases off v with ⟨-, -, h⟩ | ⟨-, h⟩ | ⟨-, h⟩ | ⟨-, h⟩ | h <;> rw [h]
  · exact acceptCmd
  · exact setLen
  · exact setCap
  · exact setData
  · exact refl _

theorem of_hostAct {op : HostOp} {s t : State} (h : hostAct op s = .ok t) : KeepsShape s t := by
  rcases hostAct_ok h with ⟨off, v, -, rfl⟩ | ⟨r, rfl⟩ | ⟨i, b, -, -, hi, rfl⟩ | ⟨i, b, -, -, hi, rfl⟩ | ⟨-, rfl⟩
  · exact writeReg
  · exact logRead
  · exact putSrc hi
  · exact putDst hi
  · exact resetRegs

theorem of_hostStep {s t : State} (h : hostStep s = .next t) : KeepsShape s t := by
  obtain ⟨-, rfl⟩ | ⟨op, rest, u, -, hu, rfl⟩ := hostStep_next h
  · exact refl _
  · split_ifs
    · exact (of_hostAct hu).trans setProgram
    · exact of_hostAct hu

/-! ### The step of the whole machine -/

theorem takeTurn {s : State} : KeepsShape s s.takeTurn := by
  obtain ⟨ts, h⟩ := s.takeTurn_eq
  rw [h]
  exact setTurns

theorem of_step {s t : State} (h : step s = .next t) : KeepsShape s t := by
  obtain ⟨-, hs⟩ | ⟨-, hs⟩ | ⟨-, hs⟩ := step_cases s <;> rw [hs] at h
  · cases h
    exact refl _
  · exact takeTurn.trans (of_coreStep h)
  · exact takeTurn.trans (of_hostStep h)

end KeepsShape

/-- Settles O49: a step is a wait, a CORE step or a Host step, and each is a chain of updates that keep the shape. -/
theorem stepKeepsShape : Obligations.StepKeepsShape := by
  unfold Obligations.StepKeepsShape
  intro s t hs h
  exact KeepsShape.of_step h hs

end Sys2Proof.Machine
end

section
/-! PROOFS. The decoder read backwards: a word that decodes is the word of its command, because its fields are all of
it (R80) and the decoder looks at every one of them. -/

namespace Sys2Proof

/-- A word whose reserved bits are 0 is packed from its own fields (R80). -/
theorem packCmd_fields {w : Word} (h : cmdReservedClear w = true) :
    packCmd (cmdAux w) (cmdLenP w) (cmdDstP w) (cmdSrcP w) (cmdOp w) = w := by
  obtain ⟨hhigh, h7⟩ : w.extractLsb' 10 22 = 0 ∧ w.getLsbD 7 = false := by simpa [cmdReservedClear] using h
  apply BitVec.eq_of_getLsbD_eq
  intro k hk
  simp only [packCmd, cmdAux, cmdLenP, cmdDstP, cmdSrcP, cmdOp, BitVec.getLsbD_append, BitVec.getLsbD_ofBool,
    BitVec.getLsbD_extractLsb', BitVec.getLsbD_zero]
  by_cases hk10 : k < 10
  · interval_cases k <;> simp_all
  · have hbit : w.getLsbD k = false := by
      have := congrArg (·.getLsbD (k - 10)) hhigh
      simpa [show k - 10 < 22 by omega, show 10 + (k - 10) = k by omega, hk] using this
    grind

/-- A command read off the word stands when the bits reserved for its OP are clear (R82, R84). -/
theorem cmdIf_ok {c : Bool} {i j : Instr} : cmdIf c i = .ok j ↔ c = true ∧ i = j := by
  cases c <;> simp [cmdIf]

/-- No presence bit is set where the presence field is 0 (R82). -/
theorem presence_bits_of_zero {w : Word} (h : cmdPresence w = 0) :
    cmdSrcP w = false ∧ cmdDstP w = false ∧ cmdLenP w = false := by
  refine ⟨?_, ?_, ?_⟩
  · simpa [cmdPresence, cmdSrcP] using congrArg (·.getLsbD 0) h
  · simpa [cmdPresence, cmdDstP] using congrArg (·.getLsbD 1) h
  · simpa [cmdPresence, cmdLenP] using congrArg (·.getLsbD 2) h

/-- AUX with bit [9] clear is bit [8] alone (R84). -/
theorem cmdAux_of_bit9_clear {w : Word} (h : w.getLsbD 9 = false) :
    0#1 ++ BitVec.ofBool (w.getLsbD 8) = cmdAux w := by
  apply BitVec.eq_of_getLsbD_eq
  intro k hk
  simp only [cmdAux, BitVec.getLsbD_append, BitVec.getLsbD_ofBool, BitVec.getLsbD_extractLsb']
  interval_cases k <;> simp_all

/-- A word that decodes spells its command, every bit of it (R80, R81). ENCGRP and DECQUAD, OPs 0x5 and 0x6, are
the two that keep AUX bits as an operand. -/
theorem encode_of_decode {w : Word} {i : Instr} (h : decode w = .ok i) : encode i = w := by
  have hclear : cmdReservedClear w = true := by
    by_contra hc
    rw [decode, if_pos (by simpa using hc)] at h
    cases h
  rw [decode, if_neg (by simp [hclear])] at h
  rw [← packCmd_fields hclear]
  have opIs {k : Nat} (hk : (cmdOp w).toNat = k) : cmdOp w = BitVec.ofNat 4 k := by simp [← hk]
  split at h
  case h_5 hop =>
    split at h
    · cases h
    · obtain ⟨hc, rfl⟩ := cmdIf_ok.mp h
      simp_all [encode, presence_bits_of_zero]
  case h_6 hop =>
    obtain ⟨hc, rfl⟩ := cmdIf_ok.mp h
    obtain ⟨hpres, h9⟩ : cmdPresence w = 0 ∧ w.getLsbD 9 = false := by simpa using hc
    rw [encode, cmdAux_of_bit9_clear h9, opIs hop]
    simp [presence_bits_of_zero hpres]
  case h_9 => cases h
  all_goals
    obtain ⟨hc, rfl⟩ := cmdIf_ok.mp h
    simp_all [encode, presence_bits_of_zero]

end Sys2Proof
end

section
/-! PROOFS. Every step keeps the invariant. The shape is KeepsShape's; what is left is that PHASE and the sequencer
registers stay in agreement, which each CORE step answers for and no Host action can disturb. -/

namespace Sys2Proof.Machine

open Sys2Proof.Safety

/-! ### The START step, guards included -/

/-- An ENCODE finishes in its START step, or has every operand and room for its characters (R160). -/
theorem execEncode_next {x y z : Bool} {s t : State} (h : execEncode x y z s = .next t) :
    (∃ st ol r, t = s.finish st ol r) ∨
    ((x = true ∧ y = true ∧ z = true) ∧ 0 < s.lLen ∧ encodedSize s.lLen ≤ s.lCap ∧
      t = s.beginEncode ((s.lLen + 2) / 3)) := by
  unfold execEncode at h
  split_ifs at h with hparam hcap hempty <;> cases h
  · exact .inl ⟨_, _, _, rfl⟩
  · exact .inl ⟨_, _, _, rfl⟩
  · exact .inl ⟨_, _, _, rfl⟩
  · exact .inr ⟨by simpa [and_assoc] using hparam, by omega, by omega, rfl⟩

/-- A DECODE finishes in its START step, or has every operand, a source of whole quartets and its padding (R190). -/
theorem execDecode_next {x y z : Bool} {s t : State} (h : execDecode x y z s = .next t) :
    (∃ st ol r, t = s.finish st ol r) ∨
    ((x = true ∧ y = true ∧ z = true) ∧ 0 < s.lLen ∧ s.lLen % 4 = 0 ∧
      ∃ p, s.sourcePad = .ok p ∧ t = (s.setPadc p).checkCapacity) := by
  unfold execDecode at h
  split_ifs at h with hparam hlen
  · cases h
    exact .inl ⟨_, _, _, rfl⟩
  · cases h
    exact .inl ⟨_, _, _, rfl⟩
  · rw [outcomeOf_next, bind_ok] at h
    obtain ⟨p, hp, h⟩ := h
    cases h
    simp only [Bool.or_eq_true, Bool.not_eq_true', beq_iff_eq, not_or, Bool.not_eq_false] at hparam
    obtain ⟨⟨⟨⟨hx, hy⟩, hz⟩, hpos⟩, -⟩ := hparam
    exact .inr ⟨⟨hx, hy, hz⟩, by omega, by simpa [lenErr] using hlen, p, hp, rfl⟩

/-- What a START step leaves: a finished command, or a running one that L_CMD names in its one full form (R232). -/
theorem startStep_next {s t : State} (h : startStep s = .next t) :
    (∃ st ol r, t = s.finish st ol r) ∨
    (s.lCmd = 0x78 ∧ 0 < s.lLen ∧ encodedSize s.lLen ≤ s.lCap ∧ t = s.beginEncode ((s.lLen + 2) / 3)) ∨
    (s.lCmd = 0x79 ∧ 0 < s.lLen ∧ s.lLen % 4 = 0 ∧
      ∃ p, s.sourcePad = .ok p ∧ t = (s.setPadc p).checkCapacity) := by
  unfold startStep at h
  split at h
  next i hi =>
    have hword : s.lCmd = encode i := (encode_of_decode hi).symm
    rcases exec_cases h with hfin | ⟨⟨x, y, z, rfl⟩, -⟩ | ⟨⟨x, y, z, rfl⟩, -⟩
    · exact .inl hfin
    · rcases execEncode_next h with hfin | ⟨⟨rfl, rfl, rfl⟩, hrest⟩
      · exact .inl hfin
      · exact .inr (.inl ⟨hword, hrest⟩)
    · rcases execDecode_next h with hfin | ⟨⟨rfl, rfl, rfl⟩, hrest⟩
      · exact .inl hfin
      · exact .inr (.inr ⟨hword, hrest⟩)
  next =>
    cases h
    exact .inl ⟨_, _, _, rfl⟩

/-! ### One state per PHASE -/

theorem coherent_of_idle {s : State} (h : s.phase = .idle) : Coherent s := by
  simp [Coherent, h]

theorem coherent_of_start {s : State} (h : s.phase = .start) (hd : s.done = false) : Coherent s := by
  simp [Coherent, h, hd]

theorem coherent_of_encGrp {s : State} (h : s.phase = .encGrp) (hd : s.done = false) (hr : EncodeRunning s) :
    Coherent s :=
  ⟨fun _ => hd, fun _ => hr, by simp [h], by simp [h]⟩

theorem coherent_of_decBody {s : State} (h : s.phase = .decBody) (hd : s.done = false) (hr : DecodeRunning s)
    (hq : s.qidx < s.nb) : Coherent s :=
  ⟨fun _ => hd, by simp [h], fun _ => ⟨hr, hq⟩, by simp [h]⟩

theorem coherent_of_decFinal {s : State} (h : s.phase = .decFinal) (hd : s.done = false) (hr : DecodeRunning s)
    (hp : 0 < s.padc.toNat) (hq : s.qidx = s.nb) : Coherent s :=
  ⟨fun _ => hd, by simp [h], by simp [h], fun _ => ⟨hr, hp, hq⟩⟩

/-! ### The CORE steps -/

theorem coherent_finish {s : State} {st : Status} {ol : Nat} {r : Word} : Coherent (s.finish st ol r) :=
  coherent_of_idle rfl

/-- The setup of an ENCODE with room for its characters. -/
theorem coherent_beginEncode {s : State} (hd : s.done = false) (hw : s.lCmd = 0x78) (hpos : 0 < s.lLen)
    (hlt : s.lLen < s.lenW.cells) (hcap : encodedSize s.lLen ≤ s.lCap) :
    Coherent (s.beginEncode ((s.lLen + 2) / 3)) := by
  have hfit : s.fit ((s.lLen + 2) / 3) = (s.lLen + 2) / 3 := State.fit_of_lt (by omega)
  refine coherent_of_encGrp rfl hd ⟨hw, hcap, hfit, ?_, rfl⟩
  simp only [State.beginEncode_qidx, State.beginEncode_nq, hfit]
  omega

/-- The last step of DECODE's validation, PADC known (R190). -/
theorem coherent_checkCapacity {s : State} (hd : s.done = false) (hw : s.lCmd = 0x79) (hpos : 0 < s.lLen)
    (hmul : s.lLen % 4 = 0) (hlt : s.lLen < s.lenW.cells) (hpad : SourcePad s.src s.lLen s.padc.toNat) :
    Coherent s.checkCapacity := by
  obtain ⟨-, h⟩ | ⟨hcap, h⟩ := s.checkCapacity_cases <;> rw [h]
  · exact coherent_finish
  · generalize hnb : s.lLen / 4 - (if 0 < s.padc.toNat then 1 else 0) = nb
    have hnb_le : nb ≤ s.lLen / 4 := by omega
    have fitQ : s.fit (s.lLen / 4) = s.lLen / 4 := State.fit_of_lt (by omega)
    have fitB : s.fit nb = nb := State.fit_of_lt (by omega)
    have hrun : DecodeRunning (s.beginDecode (s.lLen / 4) nb) := by
      refine ⟨hw, hpos, hmul, hpad, ?_, fitQ, ?_, rfl⟩
      · simpa [maxDecodedSize, lenErr, hmul, Nat.mul_comm] using hcap
      · rw [State.beginDecode_nb, State.beginDecode_nq, State.beginDecode_padc, fitQ, fitB, hnb]
    by_cases hbody : 0 < nb
    · refine coherent_of_decBody (by simp [hbody]) hd hrun ?_
      simpa [fitB] using hbody
    · have hp : 0 < s.padc.toNat := by
        by_contra hp
        rw [if_neg hp] at hnb
        omega
      refine coherent_of_decFinal (by simp [hbody]) hd hrun hp ?_
      simp only [State.beginDecode_qidx, State.beginDecode_nb, fitB]
      omega

/-- The end of a group step whose group was the due one of a running ENCODE (R161). -/
theorem coherent_endGroup {s : State} (hp : s.phase = .encGrp) (hd : s.done = false) (hr : EncodeRunning s)
    (hcap : s.lCap < s.lenW.cells) : Coherent s.endGroup := by
  obtain ⟨hw, hroom, hgroups, hq, hcount⟩ := hr
  have hsize : encodedSize s.lLen = 4 * s.nq := by rw [hgroups, encodedSize]
  have fitQ : s.fit (s.qidx + 1) = s.qidx + 1 := State.fit_of_lt (by omega)
  have fitW : s.fit (s.wcnt + 4) = s.wcnt + 4 := State.fit_of_lt (by omega)
  obtain ⟨hne, h⟩ | ⟨-, h⟩ := s.endGroup_cases <;> rw [h]
  · have hq' : (s.countBytes 4).nextQuartet.qidx = s.qidx + 1 := fitQ
    have hcount' : (s.countBytes 4).nextQuartet.wcnt = s.wcnt + 4 := fitW
    refine coherent_of_encGrp hp hd ⟨hw, hroom, hgroups, ?_, ?_⟩
    · rw [hq', State.nextQuartet_nq, State.countBytes_nq]
      omega
    · rw [hq', hcount']
      omega
  · exact coherent_finish

/-- The end of a body step whose quartet was the due one of a running DECODE (R191). -/
theorem coherent_endBody {s : State} (hp : s.phase = .decBody) (hd : s.done = false) (hr : DecodeRunning s)
    (hq : s.qidx < s.nb) (hlen : s.lLen < s.lenW.cells) : Coherent s.endBody := by
  obtain ⟨hw, hpos, hmul, hpad, hroom, hquartets, hbodies, hcount⟩ := hr
  have hnb : s.nb ≤ s.lLen / 4 := by omega
  have fitQ : s.fit (s.qidx + 1) = s.qidx + 1 := State.fit_of_lt (by omega)
  have fitW : s.fit (s.wcnt + 3) = s.wcnt + 3 := State.fit_of_lt (by omega)
  have hq' : (s.countBytes 3).nextQuartet.qidx = s.qidx + 1 := fitQ
  have hcount' : (s.countBytes 3).nextQuartet.wcnt = 3 * (s.countBytes 3).nextQuartet.qidx := by
    rw [hq', show (s.countBytes 3).nextQuartet.wcnt = s.wcnt + 3 from fitW]
    omega
  have hrun : DecodeRunning (s.countBytes 3).nextQuartet :=
    ⟨hw, hpos, hmul, hpad, hroom, hquartets, hbodies, hcount'⟩
  obtain ⟨hne, h⟩ | ⟨hlast, hpadc, h⟩ | ⟨-, -, h⟩ := s.endBody_cases <;> rw [h]
  · refine coherent_of_decBody hp hd hrun ?_
    rw [hq', State.nextQuartet_nb, State.countBytes_nb]
    omega
  · have hpadc' : 0 < s.padc.toNat := Nat.pos_of_ne_zero (by simpa [← BitVec.toNat_inj] using hpadc)
    exact coherent_of_decFinal rfl hd hrun hpadc' hlast
  · exact coherent_finish

theorem coherent_startStep {s t : State} (hi : Inv s) (hp : s.phase = .start) (h : startStep s = .next t) :
    Coherent t := by
  obtain ⟨⟨-, -, -, -, -, -, -, hlt, -⟩, hdone, -⟩ := hi
  have hd : s.done = false := hdone (by simp [hp])
  rcases startStep_next h with ⟨st, ol, r, rfl⟩ | ⟨hw, hpos, hroom, rfl⟩ | ⟨hw, hpos, hmul, p, hpad, rfl⟩
  · exact coherent_finish
  · exact coherent_beginEncode hd hw hpos hlt hroom
  · exact coherent_checkCapacity (s := s.setPadc p) hd hw hpos hmul hlt ((State.sourcePad_ok hpos hlt).mp hpad)

theorem coherent_encGroupStep {s t : State} (hi : Inv s) (hp : s.phase = .encGrp)
    (h : encGroupStep s = .next t) : Coherent t := by
  obtain ⟨⟨-, -, -, -, -, -, -, -, hcap, -⟩, hdone, hrun, -⟩ := hi
  obtain ⟨-, g, -, -, rfl⟩ := encGroupStep_next h
  exact coherent_endGroup (s := s.putDst _ _) hp (hdone (by simp [hp])) (hrun hp) hcap

theorem coherent_decBodyStep {s t : State} (hi : Inv s) (hp : s.phase = .decBody) (h : decBodyStep s = .next t) :
    Coherent t := by
  obtain ⟨⟨-, -, -, -, -, -, -, hlen, -⟩, hdone, -, hbody, -⟩ := hi
  obtain ⟨hrun, hq⟩ := hbody hp
  obtain ⟨c, -, ⟨-, -, rfl⟩ | ⟨-, rfl⟩⟩ := decBodyStep_next h
  · exact coherent_endBody (s := s.putDst _ _) hp (hdone (by simp [hp])) hrun hq hlen
  · exact coherent_finish

theorem coherent_decFinalStep {s t : State} (h : decFinalStep s = .next t) : Coherent t := by
  obtain ⟨c, -, ⟨-, -, rfl⟩ | ⟨-, rfl⟩⟩ := decFinalStep_next h <;> exact coherent_of_idle rfl

theorem coherent_coreStep {s t : State} (hi : Inv s) (h : coreStep s = .next t) : Coherent t := by
  unfold coreStep at h
  cases hp : s.phase <;> rw [hp] at h
  case idle =>
    cases h
    exact coherent_of_idle hp
  case start => exact coherent_startStep hi hp h
  case encGrp => exact coherent_encGroupStep hi hp h
  case decBody => exact coherent_decBodyStep hi hp h
  case decFinal => exact coherent_decFinalStep h

/-! ### The Host steps

LEN, CAP, DATA, DST and the Host's own fields are none that `Coherent` speaks of; a CMD write and an SRC write are
accepted only while idle (R41, R62). -/

theorem coherent_writeReg {s : State} {off : Nat} {v : Word} (hc : Coherent s) : Coherent (s.writeReg off v) := by
  rcases s.writeReg_cases off v with ⟨-, -, h⟩ | ⟨-, h⟩ | ⟨-, h⟩ | ⟨-, h⟩ | h <;> rw [h]
  · exact coherent_of_start rfl rfl
  all_goals exact hc

theorem coherent_hostAct {op : HostOp} {s t : State} (hc : Coherent s) (h : hostAct op s = .ok t) : Coherent t := by
  rcases hostAct_ok h with ⟨off, v, -, rfl⟩ | ⟨r, rfl⟩ | ⟨i, b, -, hidle, -, rfl⟩ | ⟨i, b, -, -, -, rfl⟩ | ⟨-, rfl⟩
  · exact coherent_writeReg hc
  · exact hc
  · exact coherent_of_idle hidle
  · exact hc
  · exact coherent_of_idle rfl

theorem coherent_hostStep {s t : State} (hc : Coherent s) (h : hostStep s = .next t) : Coherent t := by
  obtain ⟨-, rfl⟩ | ⟨op, rest, u, -, hu, rfl⟩ := hostStep_next h
  · exact hc
  · have hcu : Coherent u := coherent_hostAct hc hu
    split_ifs <;> exact hcu

/-! ### The step of the whole machine -/

theorem inv_takeTurn {s : State} (hi : Inv s) : Inv s.takeTurn := by
  obtain ⟨ts, h⟩ := s.takeTurn_eq
  rw [h]
  exact hi

theorem coherent_step {s t : State} (hi : Inv s) (h : step s = .next t) : Coherent t := by
  have hturn : Inv s.takeTurn := inv_takeTurn hi
  obtain ⟨-, hs⟩ | ⟨-, hs⟩ | ⟨-, hs⟩ := step_cases s <;> rw [hs] at h
  · cases h
    exact hi.2
  · exact coherent_coreStep hturn h
  · exact coherent_hostStep hturn.2 h

/-- Settles O50: the shape is kept (O49), and PHASE and the sequencer registers stay in agreement in every CORE step
and under every Host action. -/
theorem stepKeepsInvariant : Obligations.StepKeepsInvariant := by
  unfold Obligations.StepKeepsInvariant
  intro s t hi h
  exact ⟨(KeepsShape.of_step h hi.1).1, coherent_step hi h⟩

end Sys2Proof.Machine
end

section
/-! PROOFS. Frames: what the START step of a command leaves unchanged, and when the Host can see STATUS, OUT_LEN and
RESULT change. -/

namespace Sys2Proof.Machine

open Sys2Proof.Safety

/-! ### What a START step leaves unchanged -/

/-- `t` is `s` in all that no START step writes: LEN_W, the buffers, the Host's registers, the latches and the Host
agent (R36, R64). -/
def StartFrame (s t : State) : Prop :=
  t.lenW = s.lenW ∧ (∀ a, t.src.read a = s.src.read a) ∧ (∀ a, t.dst.read a = s.dst.read a) ∧
  t.cmd = s.cmd ∧ t.len = s.len ∧ t.cap = s.cap ∧ t.data = s.data ∧
  t.lCmd = s.lCmd ∧ t.lLen = s.lLen ∧ t.lCap = s.lCap ∧ t.lData = s.lData ∧
  t.program = s.program ∧ t.turns = s.turns ∧ t.reads = s.reads

namespace StartFrame

variable {s : State}

theorem finish {st : Status} {ol : Nat} {r : Word} : StartFrame s (s.finish st ol r) := by
  simp [StartFrame]

theorem beginEncode {groups : Nat} : StartFrame s (s.beginEncode groups) := by
  simp [StartFrame]

theorem setPadc_checkCapacity {p : BitVec 2} : StartFrame s (s.setPadc p).checkCapacity := by
  obtain ⟨-, h⟩ | ⟨-, h⟩ := (s.setPadc p).checkCapacity_cases <;> simp [StartFrame, h]

theorem of_exec {i : Instr} {t : State} (h : exec i s = .next t) : StartFrame s t := by
  rcases exec_cases h with ⟨st, ol, r, rfl⟩ | ⟨-, -, -, rfl⟩ | ⟨-, p, -, rfl⟩
  · exact finish
  · exact beginEncode
  · exact setPadc_checkCapacity

end StartFrame

/-- Settles O30: a command finishes, which writes results only, or it is an ENCODE or a DECODE and sets up the
sequencer registers. -/
theorem commandFrame : Obligations.CommandFrame := by
  unfold Obligations.CommandFrame
  intro i s t h
  suffices hseq :
      ((∀ x y z, i ≠ .encode x y z) → (∀ x y z, i ≠ .decode x y z) →
        t.qidx = s.qidx ∧ t.nq = s.nq ∧ t.nb = s.nb ∧ t.padc = s.padc ∧ t.wcnt = s.wcnt) ∧
      ((∀ x y z, i ≠ .decode x y z) → t.nb = s.nb ∧ t.padc = s.padc) by
    simpa only [StartFrame, and_assoc] using And.intro (StartFrame.of_exec h) hseq
  rcases exec_cases h with ⟨st, ol, r, rfl⟩ | ⟨⟨x, y, z, rfl⟩, -, -, rfl⟩ | ⟨⟨x, y, z, rfl⟩, -⟩
  · exact ⟨fun _ _ => ⟨rfl, rfl, rfl, rfl, rfl⟩, fun _ => ⟨rfl, rfl⟩⟩
  · exact ⟨fun hne _ => absurd rfl (hne x y z), fun _ => ⟨rfl, rfl⟩⟩
  · exact ⟨fun _ hne => absurd rfl (hne x y z), fun hne => absurd rfl (hne x y z)⟩

/-! ### When the results change -/

/-- `t` reports the same STATUS, OUT_LEN and RESULT as `s`. -/
def SameResults (s t : State) : Prop := t.status = s.status ∧ t.outLen = s.outLen ∧ t.result = s.result

/-- `t` is where an operation has just finished (R231). -/
def Finished (t : State) : Prop := t.phase = .idle ∧ t.done = true

theorem finished_finish {s : State} {st : Status} {ol : Nat} {r : Word} : Finished (s.finish st ol r) := ⟨rfl, rfl⟩

theorem endGroup_results (s : State) : SameResults s s.endGroup ∨ Finished s.endGroup := by
  obtain ⟨-, h⟩ | ⟨-, h⟩ := s.endGroup_cases <;> rw [h]
  · exact .inl ⟨rfl, rfl, rfl⟩
  · exact .inr finished_finish

theorem endBody_results (s : State) : SameResults s s.endBody ∨ Finished s.endBody := by
  obtain ⟨-, h⟩ | ⟨-, -, h⟩ | ⟨-, -, h⟩ := s.endBody_cases <;> rw [h]
  · exact .inl ⟨rfl, rfl, rfl⟩
  · exact .inl ⟨rfl, rfl, rfl⟩
  · exact .inr finished_finish

theorem checkCapacity_results (s : State) : SameResults s s.checkCapacity ∨ Finished s.checkCapacity := by
  obtain ⟨-, h⟩ | ⟨-, h⟩ := s.checkCapacity_cases <;> rw [h]
  · exact .inr finished_finish
  · exact .inl ⟨rfl, rfl, rfl⟩

theorem startStep_results {s t : State} (h : startStep s = .next t) : SameResults s t ∨ Finished t := by
  rcases startStep_next h with ⟨st, ol, r, rfl⟩ | ⟨-, -, -, rfl⟩ | ⟨-, -, -, p, -, rfl⟩
  · exact .inr finished_finish
  · exact .inl ⟨rfl, rfl, rfl⟩
  · exact checkCapacity_results (s.setPadc p)

/-- A CORE step leaves the results alone unless it finishes the operation (R37, R231). -/
theorem coreStep_results {s t : State} (h : coreStep s = .next t) : SameResults s t ∨ Finished t := by
  unfold coreStep at h
  cases hp : s.phase <;> rw [hp] at h
  case idle =>
    cases h
    exact .inl ⟨rfl, rfl, rfl⟩
  case start => exact startStep_results h
  case encGrp =>
    obtain ⟨-, g, -, -, rfl⟩ := encGroupStep_next h
    exact endGroup_results (s.putDst _ _)
  case decBody =>
    obtain ⟨c, -, ⟨-, -, rfl⟩ | ⟨-, rfl⟩⟩ := decBodyStep_next h
    · exact endBody_results (s.putDst _ _)
    · exact .inr finished_finish
  case decFinal =>
    obtain ⟨c, -, ⟨-, -, rfl⟩ | ⟨-, rfl⟩⟩ := decFinalStep_next h
    · exact .inr finished_finish
    · exact .inr finished_finish

theorem writeReg_results (s : State) (off : Nat) (v : Word) : SameResults s (s.writeReg off v) := by
  rcases s.writeReg_cases off v with ⟨-, -, h⟩ | ⟨-, h⟩ | ⟨-, h⟩ | ⟨-, h⟩ | h <;> rw [h] <;> exact ⟨rfl, rfl, rfl⟩

theorem hostAct_results {op : HostOp} {s t : State} (h : hostAct op s = .ok t) : SameResults s t ∨ op = .reset := by
  rcases hostAct_ok h with ⟨off, v, -, rfl⟩ | ⟨r, rfl⟩ | ⟨i, b, -, -, -, rfl⟩ | ⟨i, b, -, -, -, rfl⟩ | ⟨rfl, -⟩
  · exact .inl (writeReg_results s off v)
  · exact .inl ⟨rfl, rfl, rfl⟩
  · exact .inl ⟨rfl, rfl, rfl⟩
  · exact .inl ⟨rfl, rfl, rfl⟩
  · exact .inr rfl

/-- A Host step leaves the results alone unless it is a reset (R29). -/
theorem hostStep_results {s t : State} (h : hostStep s = .next t) :
    SameResults s t ∨ s.program.head? = some .reset := by
  obtain ⟨-, rfl⟩ | ⟨op, rest, u, hprog, hu, rfl⟩ := hostStep_next h
  · exact .inl ⟨rfl, rfl, rfl⟩
  · rcases hostAct_results hu with hsame | rfl
    · split_ifs <;> exact .inl hsame
    · exact .inr (by rw [hprog, List.head?_cons])

/-- Settles O51: the CORE writes the results in `finish` only, and the Host in a reset only. -/
theorem resultsChangeOnlyAtFinish : Obligations.ResultsChangeOnlyAtFinish := by
  unfold Obligations.ResultsChangeOnlyAtFinish
  intro s t h
  obtain ⟨ts, hturn⟩ := s.takeTurn_eq
  obtain ⟨-, hs⟩ | ⟨hcore, hs⟩ | ⟨hhost, hs⟩ := step_cases s <;> rw [hs] at h
  · cases h
    exact .inl ⟨rfl, rfl, rfl⟩
  · rw [hturn] at h
    exact (coreStep_results h).imp id fun ⟨hidle, hdone⟩ => .inl ⟨State.nextAgent_core hcore, hidle, hdone, hcore⟩
  · rw [hturn] at h
    exact (hostStep_results h).imp id fun hreset => .inr ⟨hhost, hreset⟩

end Sys2Proof.Machine
end

section
/-! PROOFS. Noninterference: a CORE step reads neither DST nor the operand registers LEN, CAP and DATA. Two states that
differ in those alone take the same step, and differ in those alone after it. -/

namespace Sys2Proof.Machine

open Sys2Proof.Safety

/-! ### Alike but for DST and the operand registers -/

/-- `s` with the contents `m` in DST and with LEN, CAP and DATA as `o` has them. -/
def State.withOther (s o : State) (m : Memory) : State :=
  { s with dst := m, len := o.len, cap := o.cap, data := o.data }

/-- `t` is `s`, of the build of `o`, but with LEN, CAP and DATA as `o` has them and, unless `sameDst`, another DST. -/
def Alike (sameDst : Prop) (o s t : State) : Prop :=
  s.lenW = o.lenW ∧ ∃ m, (sameDst → m = s.dst) ∧ t = s.withOther o m

/-- Two outcomes of one kind: the same fault, or next states that are alike. -/
def AlikeOutcomes (sameDst : Prop) (o : State) (x y : Host.Outcome State Fault Refusal) : Prop :=
  (∃ f, x = .fault f ∧ y = .fault f) ∨ ∃ s t, Alike sameDst o s t ∧ x = .next s ∧ y = .next t

section Congruence

variable {sameDst : Prop} {o s t : State}

namespace Alike

theorem ite {c : Prop} [Decidable c] {u v : State} (hyes : Alike sameDst o s t) (hno : Alike sameDst o u v) :
    Alike sameDst o (if c then s else u) (if c then t else v) := by
  split_ifs
  · exact hyes
  · exact hno

theorem finish {st : Status} {ol : Nat} {r : Word} (h : Alike sameDst o s t) :
    Alike sameDst o (s.finish st ol r) (t.finish st ol r) := by
  obtain ⟨hw, m, hm, rfl⟩ := h
  exact ⟨hw, m, hm, rfl⟩

theorem beginEncode {groups : Nat} (h : Alike sameDst o s t) :
    Alike sameDst o (s.beginEncode groups) (t.beginEncode groups) := by
  obtain ⟨hw, m, hm, rfl⟩ := h
  exact ⟨hw, m, hm, rfl⟩

theorem setPadc {p : BitVec 2} (h : Alike sameDst o s t) : Alike sameDst o (s.setPadc p) (t.setPadc p) := by
  obtain ⟨hw, m, hm, rfl⟩ := h
  exact ⟨hw, m, hm, rfl⟩

theorem putDst {i : Nat} {bs : List Byte} (h : Alike sameDst o s t) :
    Alike sameDst o (s.putDst i bs) (t.putDst i bs) := by
  obtain ⟨hw, m, hm, rfl⟩ := h
  exact ⟨hw, m.writeList i bs, fun hs => by rw [hm hs, State.putDst_dst], rfl⟩

theorem checkCapacity (h : Alike sameDst o s t) : Alike sameDst o s.checkCapacity t.checkCapacity := by
  obtain ⟨hw, m, hm, rfl⟩ := h
  exact .ite ⟨hw, m, hm, rfl⟩ ⟨hw, m, hm, rfl⟩

theorem endGroup (h : Alike sameDst o s t) : Alike sameDst o s.endGroup t.endGroup := by
  obtain ⟨hw, m, hm, rfl⟩ := h
  exact .ite ⟨hw, m, hm, rfl⟩ ⟨hw, m, hm, rfl⟩

theorem endBody (h : Alike sameDst o s t) : Alike sameDst o s.endBody t.endBody := by
  obtain ⟨hw, m, hm, rfl⟩ := h
  exact .ite (.ite ⟨hw, m, hm, rfl⟩ ⟨hw, m, hm, rfl⟩) ⟨hw, m, hm, rfl⟩

theorem endFinal {n : Nat} (h : Alike sameDst o s t) : Alike sameDst o (s.endFinal n) (t.endFinal n) := by
  obtain ⟨hw, m, hm, rfl⟩ := h
  exact ⟨hw, m, hm, rfl⟩

end Alike

namespace AlikeOutcomes

theorem next (h : Alike sameDst o s t) : AlikeOutcomes sameDst o (.next s) (.next t) := .inr ⟨s, t, h, rfl, rfl⟩

theorem fault (f : Fault) : AlikeOutcomes sameDst o (.fault f) (.fault f) := .inl ⟨f, rfl, rfl⟩

theorem ite {c : Prop} [Decidable c] {x y x' y' : Host.Outcome State Fault Refusal}
    (hyes : AlikeOutcomes sameDst o x y) (hno : AlikeOutcomes sameDst o x' y') :
    AlikeOutcomes sameDst o (if c then x else x') (if c then y else y') := by
  split_ifs
  · exact hyes
  · exact hno

/-- The same read, and alike from there on. -/
theorem bind {α : Type} {e : Except Fault α} {f g : α → Except Fault State}
    (h : ∀ a, AlikeOutcomes sameDst o (outcomeOf (f a)) (outcomeOf (g a))) :
    AlikeOutcomes sameDst o (outcomeOf (e >>= f)) (outcomeOf (e >>= g)) := by
  cases e with
  | error x => exact fault x
  | ok a => exact h a

/-- The same bytes stored, or the same fault, and `k` at the end of the step. -/
theorem storeDst {i : Nat} {bs : List Byte} {k : State → State} (h : Alike sameDst o s t)
    (hk : Alike sameDst o (k (s.putDst i bs)) (k (t.putDst i bs))) :
    AlikeOutcomes sameDst o (outcomeOf (do let u ← s.storeDst i bs; return k u))
      (outcomeOf (do let u ← t.storeDst i bs; return k u)) := by
  have hcells : t.lenW = s.lenW := by obtain ⟨-, m, -, rfl⟩ := h; rfl
  unfold State.storeDst
  rw [hcells]
  split_ifs
  · exact next hk
  · exact fault _

/-! ### The CORE steps of a state and of one that looks like it -/

theorem exec (i : Instr) (h : Alike sameDst o s t) : AlikeOutcomes sameDst o (exec i s) (exec i t) := by
  have hfin {st : Status} {ol : Nat} {r : Word} := next (h.finish (st := st) (ol := ol) (r := r))
  obtain ⟨-, m, -, rfl⟩ := id h
  cases i with
  | enclut => exact hfin
  | declut => exact hfin
  | encsize => exact hfin
  | decsize => exact .ite hfin hfin
  | encgrp k => exact .ite hfin hfin
  | decquad final => exact hfin
  | encode x y z => exact .ite hfin (.ite hfin (.ite hfin (next h.beginEncode)))
  | decode x y z =>
    exact .ite hfin (.ite hfin (.bind (e := s.sourcePad) fun p => next h.setPadc.checkCapacity))

theorem startStep (h : Alike sameDst o s t) : AlikeOutcomes sameDst o (startStep s) (startStep t) := by
  have hword : t.lCmd = s.lCmd := by obtain ⟨-, m, -, rfl⟩ := h; rfl
  unfold Machine.startStep
  rw [hword]
  cases decode s.lCmd with
  | ok i => exact exec i h
  | error e => exact next h.finish

theorem encGroupStep (h : Alike sameDst o s t) : AlikeOutcomes sameDst o (encGroupStep s) (encGroupStep t) := by
  obtain ⟨-, m, -, rfl⟩ := id h
  exact .ite (fault _) (.bind (e := s.loadGroup s.qidx s.groupLen) fun g => storeDst h h.putDst.endGroup)

theorem decBodyStep (h : Alike sameDst o s t) : AlikeOutcomes sameDst o (decBodyStep s) (decBodyStep t) := by
  obtain ⟨-, m, -, rfl⟩ := id h
  refine .bind (e := s.loadQuartet s.qidx) fun c => ?_
  dsimp only
  split_ifs
  · exact storeDst h h.putDst.endBody
  · exact next h.finish

theorem decFinalStep (h : Alike sameDst o s t) : AlikeOutcomes sameDst o (decFinalStep s) (decFinalStep t) := by
  obtain ⟨-, m, -, rfl⟩ := id h
  refine .bind (e := s.loadQuartet s.qidx) fun c => ?_
  dsimp only
  split_ifs
  · exact storeDst h h.putDst.endFinal
  · exact next h.finish

theorem coreStep (h : Alike sameDst o s t) : AlikeOutcomes sameDst o (coreStep s) (coreStep t) := by
  have hphase : t.phase = s.phase := by obtain ⟨-, m, -, rfl⟩ := h; rfl
  unfold Machine.coreStep
  rw [hphase]
  cases s.phase with
  | idle => exact next h
  | start => exact startStep h
  | encGrp => exact encGroupStep h
  | decBody => exact decBodyStep h
  | decFinal => exact decFinalStep h

end AlikeOutcomes

end Congruence

/-! ### The statements -/

/-- A state looks like itself, so what `Alike` pins down is what a CORE step leaves unchanged (R20, R26, R27, R28). -/
theorem coreStep_operands {s t : State} (h : coreStep s = .next t) :
    t.lenW = s.lenW ∧ t.len = s.len ∧ t.cap = s.cap ∧ t.data = s.data := by
  have self : Alike True s s s := ⟨rfl, s.dst, fun _ => rfl, rfl⟩
  obtain ⟨f, hf, -⟩ | ⟨u, v, ⟨hw, m, -, rfl⟩, hu, hv⟩ := AlikeOutcomes.coreStep self
  · rw [h] at hf
    cases hf
  · rw [h] at hu hv
    cases hu
    have htv : t = t.withOther s m := by simpa using hv
    rw [htv]
    exact ⟨hw, rfl, rfl, rfl⟩

/-- Settles O33: the two steps fault alike, or leave states that differ in DST alone. -/
theorem coreNeverReadsDst : Obligations.CoreNeverReadsDst := by
  unfold Obligations.CoreNeverReadsDst
  intro s m
  have alike : Alike False s s { s with dst := m } := ⟨rfl, m, False.elim, rfl⟩
  obtain ⟨f, hs, ht⟩ | ⟨u, v, ⟨-, n, -, rfl⟩, hs, ht⟩ := AlikeOutcomes.coreStep alike <;> rw [hs, ht]
  obtain ⟨-, hlen, hcap, hdata⟩ := coreStep_operands hs
  simp only [mapNext, State.withOther, hlen, hcap, hdata]

/-- A write of LEN, CAP or DATA, busy or idle: those registers alone change, and by the build's LEN_W alone. -/
theorem writeReg_eq_withOther {s t : State} {off : Nat} (v : Word) (hoff : off = 0x04 ∨ off = 0x08 ∨ off = 0x0C)
    (h : t.lenW = s.lenW ∧ t.len = s.len ∧ t.cap = s.cap ∧ t.data = s.data) :
    t.writeReg off v = t.withOther (s.writeReg off v) t.dst := by
  obtain ⟨hw, hlen, hcap, hdata⟩ := h
  rcases hoff with rfl | rfl | rfl
  · simp only [State.writeReg, State.setLen, State.withOther, State.fit, hw, hcap, hdata]
  · simp only [State.writeReg, State.setCap, State.withOther, State.fit, hw, hlen, hdata]
  · simp only [State.writeReg, State.setData, State.withOther, hlen, hcap]

/-- Settles O32: a state and the same state after the write look alike, so the CORE takes the same step from both. -/
theorem operandWriteWhileBusy : Obligations.OperandWriteWhileBusy := by
  unfold Obligations.OperandWriteWhileBusy
  intro s v _
  refine ⟨rfl, rfl, rfl, fun off hoff => ?_⟩
  have hwrite : s.writeReg off v = s.withOther (s.writeReg off v) s.dst :=
    writeReg_eq_withOther v hoff ⟨rfl, rfl, rfl, rfl⟩
  have alike : Alike True (s.writeReg off v) s (s.writeReg off v) :=
    ⟨(congrArg State.lenW hwrite).symm, s.dst, fun _ => rfl, hwrite⟩
  obtain ⟨f, hs, ht⟩ | ⟨u, w, ⟨-, n, hn, rfl⟩, hs, ht⟩ := AlikeOutcomes.coreStep alike <;> rw [hs, ht]
  · rfl
  · rw [hn trivial, ← writeReg_eq_withOther v hoff (coreStep_operands hs)]
    rfl

end Sys2Proof.Machine
end

section
/-! PROOFS. The Host's registers: commands accepted and placed, the register map, the bits of STAT, and reset. -/

namespace Sys2Proof.Machine

open Sys2Proof.Safety

/-! ### Accepting a command -/

/-- In a busy machine the turn given to the CORE is the next one, and taking it restores `turns` (R72). -/
theorem State.coreTurn_takeTurn {s : State} (hb : s.phase ≠ .idle) :
    s.coreTurn.nextAgent = some .core ∧ s.coreTurn.takeTurn = s := by
  by_cases hp : s.program = []
  · have hc : s.coreTurn = s := by simp [State.coreTurn, State.choice, hp]
    rw [hc]
    exact State.nextAgent_of_noProgram hb hp
  · have hc : s.choice = true := (s.choice_iff).mpr ⟨hb, hp⟩
    have hc' : (s.setTurns (.core :: s.turns)).choice = true := hc
    rw [State.coreTurn, if_pos hc, State.nextAgent, if_pos hc', State.takeTurn, if_pos hc']
    exact ⟨rfl, rfl⟩

theorem step_coreTurn {s : State} (hb : s.phase ≠ .idle) : step s.coreTurn = coreStep s := by
  obtain ⟨hagent, hturn⟩ := State.coreTurn_takeTurn hb
  rw [step, hagent]
  exact congrArg coreStep hturn

/-- Settles O14: the placed word is the CORE's next step, and its START step is exec of what it decodes to. -/
theorem stepRunsPlacedWord : Obligations.StepRunsPlacedWord := by
  unfold Obligations.StepRunsPlacedWord
  intro s nbits w i hi
  have hdec : decode (tableWord nbits w) = .ok i := by
    cases h : decode (tableWord nbits w) <;> simp_all [decodeTableWord, Except.toOption]
  have hstart : coreStep (s.acceptCmd (tableWord nbits w)) = startStep (s.acceptCmd (tableWord nbits w)) := rfl
  rw [State.withFetchWord, step_coreTurn (by simp), hstart, startStep, State.acceptCmd_lCmd, hdec]
  rfl

/-- Settles O15: R41's two cases are those of `writeCmd`. -/
theorem cmdWriteAcceptedOrIgnored : Obligations.CmdWriteAcceptedOrIgnored := by
  unfold Obligations.CmdWriteAcceptedOrIgnored
  intro s w
  refine ⟨fun hidle => ?_, fun hbusy => ?_⟩
  · exact if_neg (by simpa using hidle)
  · exact if_pos (by simpa using hbusy)

/-! ### The register map -/

/-- A register stored as its low LEN_W bits reads as those bits, zero-extended (R26, R27). -/
theorem ofNat_fit (s : State) (v : Word) :
    BitVec.ofNat 32 (s.fit v.toNat) = (v.setWidth s.lenW.bits).setWidth 32 := by
  apply BitVec.eq_of_toNat_eq
  simp [State.fit, LenW.cells]

theorem readReg_unmapped (s : State) {off : Nat} (h0 : off ≠ 0x00) (h1 : off ≠ 0x04) (h2 : off ≠ 0x08)
    (h3 : off ≠ 0x0C) (h4 : off ≠ 0x10) (h5 : off ≠ 0x14) (h6 : off ≠ 0x18) : s.readReg off = 0 := by
  unfold State.readReg
  split
  case h_8 => rfl
  all_goals contradiction

/-- Settles O35: the map entry by entry; LEN and CAP store and read back the low LEN_W bits. -/
theorem registerMap : Obligations.RegisterMap := by
  unfold Obligations.RegisterMap
  intro s
  refine ⟨rfl, rfl, rfl, rfl, rfl, rfl, rfl, ?_, fun v => ⟨rfl, ?_, rfl, ?_⟩⟩
  · intro off h0 h1 h2 h3 h4 h5 h6
    exact readReg_unmapped s h0 h1 h2 h3 h4 h5 h6
  · exact ofNat_fit s v
  · exact ofNat_fit s v

/-- Settles O36: of the cases of a register write, those that write name one of the four offsets. -/
theorem readOnlyWritesIgnored : Obligations.ReadOnlyWritesIgnored := by
  unfold Obligations.ReadOnlyWritesIgnored
  intro s v
  refine ⟨fun off h0 h1 h2 h3 => ?_, fun off => rfl, rfl, rfl⟩
  have hsame : s.writeReg off v = s := by
    rcases s.writeReg_cases off v with ⟨h, -, -⟩ | ⟨h, -⟩ | ⟨h, -⟩ | ⟨h, -⟩ | h
    · exact absurd h h0
    · exact absurd h h1
    · exact absurd h h2
    · exact absurd h h3
    · exact h
  rw [hostAct, hsame]

/-- The fields of a word packed as STAT is (R29). -/
theorem statWord_fields : ∀ (code : BitVec 3) (done busy : Bool),
    let w : Word := 0#25 ++ code ++ 0#2 ++ BitVec.ofBool done ++ BitVec.ofBool busy
    w.getLsbD 0 = busy ∧ w.getLsbD 1 = done ∧ w.extractLsb' 2 2 = 0 ∧ w.extractLsb' 4 3 = code ∧
      w.extractLsb' 7 25 = 0 := by
  decide

/-- Settles O37: STAT is packed from STATUS, DONE and BUSY, and its fields are those. -/
theorem statBits : Obligations.StatBits := by
  unfold Obligations.StatBits
  intro s
  obtain ⟨hbusy, hdone, h32, hcode, hhigh⟩ := statWord_fields s.status.code s.done s.busy
  refine ⟨?_, hdone, h32, hcode, hhigh, rfl, rfl, rfl, rfl, rfl, rfl, rfl⟩
  rw [← s.busy_iff, ← hbusy]
  rfl

/-! ### Reset -/

theorem stat_busy_of_idle {s : State} (h : s.phase = .idle) : s.stat.getLsbD 0 = false := by
  obtain ⟨hbusy, -⟩ := statWord_fields s.status.code s.done s.busy
  exact hbusy.trans ((s.busy_eq_false).mpr h)

/-- Settles O42: the registers are constants of the two reset states, and the buffers empty or kept. -/
theorem resetValues : Obligations.ResetValues := by
  unfold Obligations.ResetValues
  refine ⟨fun w => ?_, rfl, fun s => ⟨s.resetRegs, rfl, ?_⟩⟩
  · exact ⟨rfl, rfl, rfl, rfl, rfl, rfl, rfl, rfl, rfl, Memory.read_nil, Memory.read_nil⟩
  · exact ⟨rfl, rfl, rfl, rfl, rfl, stat_busy_of_idle rfl, rfl, rfl, rfl, rfl, rfl, rfl⟩

theorem wellShaped_powerOn (w : LenW) : WellShaped (State.powerOn w) := by
  have hpos : 0 < w.cells := w.cells_pos
  simp [WellShaped, State.powerOn, hpos]

/-- Settles O44: at power-on the buffers are empty, the registers are 0 and the CORE is idle. -/
theorem powerOnMeetsInvariant : Obligations.PowerOnMeetsInvariant := by
  unfold Obligations.PowerOnMeetsInvariant
  have hinv (w : LenW) : Inv (State.powerOn w) := ⟨wellShaped_powerOn w, coherent_of_idle rfl⟩
  exact ⟨hinv, hinv Config.lenW⟩

end Sys2Proof.Machine
end

section
/-! PROOFS. The Host's accesses to the buffers, and what it can rely on between two commands. -/

namespace Sys2Proof.Machine

open Sys2Proof.Safety

/-! ### Single accesses -/

theorem State.ifCell_of_lt {s t : State} {i : Nat} (h : i < s.lenW.cells) : s.ifCell i t = .ok t := if_pos h

section Busy

variable {s : State} (hbusy : s.phase ≠ .idle) (i : Nat) (b : Byte)

include hbusy

theorem hostAct_writeSrc_busy : hostAct (.writeSrc i b) s = .error .srcWriteBusy := if_pos ((s.busy_iff).mpr hbusy)

theorem hostAct_writeDst_busy : hostAct (.writeDst i b) s = .error .dstWriteBusy := if_pos ((s.busy_iff).mpr hbusy)

end Busy

section Idle

variable {s : State} {i : Nat} (hidle : s.phase = .idle) (hi : i < s.lenW.cells) (b : Byte)

include hidle hi

theorem hostAct_writeSrc_idle : hostAct (.writeSrc i b) s = .ok (s.putSrc i b) := by
  rw [hostAct, (s.busy_eq_false).mpr hidle]
  exact State.ifCell_of_lt hi

theorem hostAct_writeDst_idle : hostAct (.writeDst i b) s = .ok (s.putDst i [b]) := by
  rw [hostAct, (s.busy_eq_false).mpr hidle]
  exact State.ifCell_of_lt hi

end Idle

/-- Settles O38: reads log the cell, a write while BUSY faults, and a write while idle is one write of the buffer. -/
theorem hostBufferAccess : Obligations.HostBufferAccess := by
  unfold Obligations.HostBufferAccess
  intro s i b hi
  refine ⟨State.ifCell_of_lt hi, State.ifCell_of_lt hi, fun hbusy => ?_, fun hidle => ?_⟩
  · exact ⟨hostAct_writeSrc_busy hbusy i b, hostAct_writeDst_busy hbusy i b⟩
  · exact ⟨s.src.write i b, s.dst.write i b, hostAct_writeSrc_idle hidle hi b, hostAct_writeDst_idle hidle hi b,
      s.src.read_write_same i b, fun j hj => s.src.read_write_ne b hj,
      s.dst.read_write_same i b, fun j hj => s.dst.read_write_ne b hj⟩

/-! ### Host steps -/

/-- A Host step whose action faults is that fault (R239). -/
theorem step_fault_of_hostAct {s : State} {op : HostOp} {rest : List HostOp} {f : Fault}
    (hagent : s.nextAgent = some .host) (hprog : s.program = op :: rest)
    (hact : ∀ ts, hostAct op (s.setTurns ts) = .error f) : step s = .fault f := by
  obtain ⟨ts, hturn⟩ := s.takeTurn_eq
  rw [step, hagent, hturn]
  simp [hostStep, hprog, hact, bind, Except.bind]

/-- Settles O39: the step is the Host's, and its action faults whatever turns are left. -/
theorem busyBufferWriteFaults : Obligations.BusyBufferWriteFaults := by
  unfold Obligations.BusyBufferWriteFaults
  intro s i b rest hbusy hagent
  refine ⟨fun hprog => ?_, fun hprog => ?_⟩
  · exact step_fault_of_hostAct hagent hprog fun ts => hostAct_writeSrc_busy (s := s.setTurns ts) hbusy i b
  · exact step_fault_of_hostAct hagent hprog fun ts => hostAct_writeDst_busy (s := s.setTurns ts) hbusy i b

/-- A register write at another offset than CMD's leaves DONE and DST alone (R24). -/
theorem writeReg_keeps_done_dst {s : State} {off : Nat} {v : Word} (hoff : off ≠ 0x00) :
    (s.writeReg off v).done = s.done ∧ (s.writeReg off v).dst = s.dst := by
  rcases s.writeReg_cases off v with ⟨h, -, -⟩ | ⟨-, h⟩ | ⟨-, h⟩ | ⟨-, h⟩ | h
  · exact absurd h hoff
  all_goals simp [h]

/-- DONE and DST change under a CMD write, a DST write and a reset only (R62, R72). -/
theorem hostAct_keeps_done_dst {op : HostOp} {s t : State} (h : hostAct op s = .ok t)
    (hcmd : ∀ w, op ≠ .writeReg 0x00 w) (hdst : ∀ i b, op ≠ .writeDst i b) (hreset : op ≠ .reset) :
    t.done = s.done ∧ t.dst = s.dst := by
  rcases hostAct_ok h with ⟨off, v, rfl, rfl⟩ | ⟨r, rfl⟩ | ⟨i, b, -, -, -, rfl⟩ | ⟨i, b, hop, -⟩ | ⟨hop, -⟩
  · refine writeReg_keeps_done_dst ?_
    rintro rfl
    exact hcmd v rfl
  · exact ⟨rfl, rfl⟩
  · exact ⟨rfl, rfl⟩
  · exact absurd hop (hdst i b)
  · exact absurd hop hreset

theorem hostStep_keeps_done_dst {s t : State} (h : hostStep s = .next t)
    (hcmd : ∀ w, s.program.head? ≠ some (.writeReg 0x00 w)) (hdst : ∀ i b, s.program.head? ≠ some (.writeDst i b))
    (hreset : s.program.head? ≠ some .reset) : t.done = s.done ∧ t.dst = s.dst := by
  obtain ⟨-, rfl⟩ | ⟨op, rest, u, hprog, hu, rfl⟩ := hostStep_next h
  · exact ⟨rfl, rfl⟩
  · rw [hprog, List.head?_cons] at hcmd hdst hreset
    have hkeep : u.done = s.done ∧ u.dst = s.dst :=
      hostAct_keeps_done_dst hu (fun w hop => hcmd w (congrArg some hop))
        (fun i b hop => hdst i b (congrArg some hop)) fun hop => hreset (congrArg some hop)
    split_ifs <;> exact hkeep

/-- Settles O52: DONE = 1 means idle, so the step is a wait or the Host's; the results stay by O51, DONE and DST
because the Host's action is none that writes them. -/
theorem doneResultsStay : Obligations.DoneResultsStay := by
  unfold Obligations.DoneResultsStay
  rintro s t ⟨-, hdone, -⟩ hd h
  have hidle : s.phase = .idle := by
    by_contra hbusy
    simp [hdone hbusy] at hd
  refine ⟨hidle, fun hcmd hreset hdst => ?_⟩
  have hkeep : t.done = s.done ∧ t.dst = s.dst := by
    obtain ⟨ts, hturn⟩ := s.takeTurn_eq
    obtain ⟨-, hs⟩ | ⟨hcore, -⟩ | ⟨-, hs⟩ := step_cases s
    · rw [hs] at h
      cases h
      exact ⟨rfl, rfl⟩
    · exact absurd hidle (State.nextAgent_core hcore)
    · rw [hs, hturn] at h
      exact hostStep_keeps_done_dst (s := s.setTurns ts) h hcmd hdst hreset
  obtain ⟨hstatus, houtLen, hresult⟩ | ⟨hbusy, -⟩ | ⟨-, hop⟩ := resultsChangeOnlyAtFinish s t h
  · exact ⟨hkeep.1.trans hd, hstatus, houtLen, hresult, fun a => by rw [hkeep.2]⟩
  · exact absurd hidle hbusy
  · exact absurd hop hreset

end Sys2Proof.Machine
end

section
/-! PROOFS. The frame of the running steps: what a group, body or final step leaves unchanged. -/

namespace Sys2Proof.Machine

/-- `t` is `s` in all that the end of a running step keeps: everything but the results, DONE, PHASE, QIDX and WCNT
(R161, R191, R192). -/
def RunFrame (s t : State) : Prop :=
  t.dst = s.dst ∧ t.lenW = s.lenW ∧ t.src = s.src ∧ t.cmd = s.cmd ∧ t.len = s.len ∧ t.cap = s.cap ∧ t.data = s.data ∧
  t.lCmd = s.lCmd ∧ t.lLen = s.lLen ∧ t.lCap = s.lCap ∧ t.lData = s.lData ∧
  t.nq = s.nq ∧ t.nb = s.nb ∧ t.padc = s.padc ∧ t.program = s.program ∧ t.turns = s.turns ∧ t.reads = s.reads

/-- The DST cells that the due group or quartet may write (R161, R191, R192). -/
def State.dueCell (s : State) (a : Nat) : Prop :=
  (s.phase = .encGrp ∧ 4 * s.qidx ≤ a ∧ a < 4 * s.qidx + 4) ∨
  (s.phase = .decBody ∧ 3 * s.qidx ≤ a ∧ a < 3 * s.qidx + 3) ∨
  (s.phase = .decFinal ∧ 3 * s.qidx ≤ a ∧ a < 3 * s.qidx + 2)

namespace RunFrame

theorem refl (s : State) : RunFrame s s := by
  simp [RunFrame]

theorem finish (s : State) (st : Status) (ol : Nat) (r : Word) : RunFrame s (s.finish st ol r) := by
  simp [RunFrame]

theorem endGroup (s : State) : RunFrame s s.endGroup := by
  obtain ⟨-, h⟩ | ⟨-, h⟩ := s.endGroup_cases <;> simp [RunFrame, h]

theorem endBody (s : State) : RunFrame s s.endBody := by
  obtain ⟨-, h⟩ | ⟨-, -, h⟩ | ⟨-, -, h⟩ := s.endBody_cases <;> simp [RunFrame, h]

theorem endFinal (s : State) (n : Nat) : RunFrame s (s.endFinal n) := by
  simp [RunFrame, State.endFinal_eq]

end RunFrame

theorem finalBytes_length_le (r : QuartetOut) : (finalBytes r).length ≤ 2 := by
  rw [finalBytes_length]
  split_ifs <;> omega

/-- A CORE step past START stores some bytes, or none, in due cells, and keeps the rest. -/
theorem coreStep_runFrame {s t : State} (h : coreStep s = .next t) (hstart : s.phase ≠ .start) :
    ∃ i bs, RunFrame (s.putDst i bs) t ∧ ∀ a, i ≤ a → a < i + bs.length → s.dueCell a := by
  have nothing {u : State} (hu : RunFrame s u) :
      ∃ i bs, RunFrame (s.putDst i bs) u ∧ ∀ a, i ≤ a → a < i + bs.length → s.dueCell a :=
    ⟨0, [], hu, fun a _ ha => by simp at ha⟩
  unfold coreStep at h
  cases hp : s.phase <;> rw [hp] at h
  case idle =>
    cases h
    exact nothing (.refl s)
  case start => exact absurd hp hstart
  case encGrp =>
    obtain ⟨-, g, -, -, rfl⟩ := encGroupStep_next h
    exact ⟨_, _, .endGroup _, fun a hlo hhi => .inl ⟨hp, hlo, hhi⟩⟩
  case decBody =>
    obtain ⟨c, -, ⟨-, -, rfl⟩ | ⟨-, rfl⟩⟩ := decBodyStep_next h
    · exact ⟨_, _, .endBody _, fun a hlo hhi => .inr (.inl ⟨hp, hlo, hhi⟩)⟩
    · exact nothing (.finish s _ _ _)
  case decFinal =>
    obtain ⟨c, -, ⟨-, -, rfl⟩ | ⟨-, rfl⟩⟩ := decFinalStep_next h
    · refine ⟨_, _, .endFinal _ _, fun a hlo hhi => .inr (.inr ⟨hp, hlo, ?_⟩)⟩
      have := finalBytes_length_le (decQuartet c.c0 c.c1 c.c2 c.c3 true)
      omega
    · exact nothing (.finish s _ _ _)

/-- Settles O31: the bytes stored lie in the due cells, so every other cell reads as before. -/
theorem sequencerFrame : Obligations.SequencerFrame := by
  unfold Obligations.SequencerFrame
  intro s t h hstart
  obtain ⟨i, bs, ⟨hdst, hw, hsrc, hrest⟩, hdue⟩ := coreStep_runFrame h hstart
  refine ⟨hw, fun a => congrArg (Memory.read · a) hsrc, fun a henc hbody hfinal => ?_, hrest⟩
  have houtside : a < i ∨ i + bs.length ≤ a := by
    by_contra hin
    rcases hdue a (by omega) (by omega) with hc | hc | hc
    · exact henc hc
    · exact hbody hc
    · exact hfinal hc
  rw [hdst]
  exact Memory.read_writeList_outside bs s.dst i a houtside

end Sys2Proof.Machine
end

section
/-! PROOFS. The CORE's reads of SRC. Under the invariant each of them is of a cell below L_LEN, so an unwritten such
cell is the one reason for a CORE step to stop. -/

namespace Sys2Proof.Machine

open Sys2Proof.Safety

/-! ### The cells a step reads and writes exist -/

theorem lLen_lt_cells {s : State} (hi : Inv s) : s.lLen < s.lenW.cells := by
  obtain ⟨⟨-, -, -, -, -, -, -, hlen, -⟩, -⟩ := hi
  exact hlen

/-- The due group of a running ENCODE has a byte left, and its bytes lie below L_LEN (R161). -/
theorem groupLen_bounds {s : State} (hi : Inv s) (hp : s.phase = .encGrp) :
    0 < s.groupLen ∧ 3 * s.qidx + s.groupLen ≤ s.lLen := by
  obtain ⟨-, -, hrun, -⟩ := hi
  obtain ⟨-, -, hgroups, hq, -⟩ := hrun hp
  unfold State.groupLen
  omega

/-- The four characters of the due group of a running ENCODE have cells (R160). -/
theorem group_room {s : State} (hi : Inv s) (hp : s.phase = .encGrp) : 4 * s.qidx + 4 ≤ s.lenW.cells := by
  obtain ⟨⟨-, -, -, -, -, -, -, -, hcap, -⟩, -, hrun, -⟩ := hi
  obtain ⟨-, hroom, hgroups, hq, -⟩ := hrun hp
  rw [encodedSize] at hroom
  omega

/-- The due quartet of a running DECODE lies below L_LEN, and its bytes have cells (R190, R191). -/
theorem quartet_bounds {s : State} (hi : Inv s) (hp : s.phase = .decBody ∨ s.phase = .decFinal) :
    4 * s.qidx + 4 ≤ s.lLen ∧ 3 * s.qidx + 3 ≤ s.lenW.cells := by
  have hlen : s.lLen < s.lenW.cells := lLen_lt_cells hi
  obtain ⟨-, -, -, hbody, hfinal⟩ := hi
  have hq : s.qidx < s.lLen / 4 := by
    rcases hp with hp | hp
    · obtain ⟨⟨-, -, -, -, -, hquartets, hbodies, -⟩, hq⟩ := hbody hp
      omega
    · obtain ⟨⟨-, hpos, hmul, -, -, hquartets, hbodies, -⟩, hpad, hq⟩ := hfinal hp
      rw [if_pos hpad] at hbodies
      omega
  omega

/-! ### Which read a failed load failed in -/

theorem State.loadSrcIf_error {s : State} {c : Bool} {i : Nat} {f : Fault} (h : s.loadSrcIf c i = .error f) :
    c = true ∧ s.loadSrc i = .error f := by
  cases c
  · cases h
  · exact ⟨rfl, h⟩

theorem State.loadQuartet_error {s : State} {q : Nat} {f : Fault} (h : s.loadQuartet q = .error f) :
    ∃ i < 4 * q + 4, s.loadSrc i = .error f := by
  unfold State.loadQuartet at h
  rcases bind_error.mp h with h | ⟨_, -, h⟩
  · exact ⟨_, by omega, h⟩
  rcases bind_error.mp h with h | ⟨_, -, h⟩
  · exact ⟨_, by omega, h⟩
  rcases bind_error.mp h with h | ⟨_, -, h⟩
  · exact ⟨_, by omega, h⟩
  rcases bind_error.mp h with h | ⟨_, -, h⟩
  · exact ⟨_, by omega, h⟩
  · cases h

theorem State.loadGroup_error {s : State} {g k : Nat} {f : Fault} (hk : 0 < k) (h : s.loadGroup g k = .error f) :
    ∃ i < 3 * g + k, s.loadSrc i = .error f := by
  unfold State.loadGroup at h
  rcases bind_error.mp h with h | ⟨_, -, h⟩
  · exact ⟨_, by omega, h⟩
  rcases bind_error.mp h with h | ⟨_, -, h⟩
  · obtain ⟨hc, h⟩ := State.loadSrcIf_error h
    have hk2 : 2 ≤ k := by simpa using hc
    exact ⟨_, by omega, h⟩
  rcases bind_error.mp h with h | ⟨_, -, h⟩
  · obtain ⟨hc, h⟩ := State.loadSrcIf_error h
    have hk3 : k = 3 := by simpa using hc
    exact ⟨_, by omega, h⟩
  · cases h

theorem State.sourcePad_error {s : State} {f : Fault} (hpos : 0 < s.lLen) (h : s.sourcePad = .error f) :
    ∃ i < s.lLen, s.loadSrc i = .error f := by
  unfold State.sourcePad at h
  rcases bind_error.mp h with h | ⟨last, -, h⟩
  · exact ⟨_, by omega, h⟩
  split_ifs at h
  · rcases bind_error.mp h with h | ⟨prev, -, h⟩
    · exact ⟨_, by omega, h⟩
    · cases h
  · cases h

/-! ### A step goes on, or meets an unwritten cell -/

/-- `x` is a next state, or F_SRC_UNWRITTEN with a cell below the L_LEN of `s` unwritten (R65). -/
def NextOrUnwritten (s : State) (x : Host.Outcome State Fault Refusal) : Prop :=
  (∃ t, x = .next t) ∨ (x = .fault .srcUnwritten ∧ ∃ i < s.lLen, s.src.read i = none)

namespace NextOrUnwritten

variable {s : State}

theorem next (t : State) : NextOrUnwritten s (.next t) := .inl ⟨t, rfl⟩

theorem ite {c : Prop} [Decidable c] {x y : Host.Outcome State Fault Refusal} (hx : NextOrUnwritten s x)
    (hy : NextOrUnwritten s y) : NextOrUnwritten s (if c then x else y) := by
  split_ifs
  · exact hx
  · exact hy

/-- A load that reads below L_LEN only, and what follows it. -/
theorem bind {α : Type} {e : Except Fault α} {k : α → Except Fault State} (hlen : s.lLen < s.lenW.cells)
    (he : ∀ f, e = .error f → ∃ i < s.lLen, s.loadSrc i = .error f)
    (hk : ∀ a, NextOrUnwritten s (outcomeOf (k a))) : NextOrUnwritten s (outcomeOf (e >>= k)) := by
  cases e with
  | ok a => exact hk a
  | error f =>
    obtain ⟨i, hi, hload⟩ := he f rfl
    rcases State.loadSrc_error hload with ⟨rfl, -, hread⟩ | ⟨-, hcells⟩
    · exact .inr ⟨rfl, i, hi, hread⟩
    · omega

theorem storeDst {i : Nat} {bs : List Byte} {k : State → State} (h : i + bs.length ≤ s.lenW.cells) :
    NextOrUnwritten s (outcomeOf (do let u ← s.storeDst i bs; return k u)) := by
  rw [State.storeDst_of_le h]
  exact next _

/-! ### The CORE steps -/

theorem exec (i : Instr) (hlen : s.lLen < s.lenW.cells) : NextOrUnwritten s (exec i s) := by
  cases i with
  | enclut => exact next _
  | declut => exact next _
  | encsize => exact next _
  | decsize => exact .ite (next _) (next _)
  | encgrp k => exact .ite (next _) (next _)
  | decquad final => exact next _
  | encode x y z => exact .ite (next _) (.ite (next _) (.ite (next _) (next _)))
  | decode x y z =>
    rw [Machine.exec, execDecode]
    split_ifs with hparam
    · exact next _
    · exact next _
    · have hpos : 0 < s.lLen := by
        by_contra hzero
        exact hparam (by simp [show s.lLen = 0 by omega])
      exact bind hlen (fun _ => State.sourcePad_error hpos) fun p => next _

theorem startStep (hlen : s.lLen < s.lenW.cells) : NextOrUnwritten s (startStep s) := by
  unfold Machine.startStep
  split
  · exact exec _ hlen
  · exact next _

theorem encGroupStep (hi : Inv s) (hp : s.phase = .encGrp) : NextOrUnwritten s (encGroupStep s) := by
  obtain ⟨hpos, hbelow⟩ := groupLen_bounds hi hp
  rw [Machine.encGroupStep, if_neg (by omega)]
  refine bind (lLen_lt_cells hi) (fun f hf => ?_) fun g => storeDst (group_room hi hp)
  obtain ⟨i, hlt, hload⟩ := State.loadGroup_error hpos hf
  exact ⟨i, by omega, hload⟩

/-- The read of the due quartet, and what follows it. -/
theorem quartet (hi : Inv s) (hp : s.phase = .decBody ∨ s.phase = .decFinal) {k : Chars → Except Fault State}
    (hk : ∀ c, NextOrUnwritten s (outcomeOf (k c))) :
    NextOrUnwritten s (outcomeOf (s.loadQuartet s.qidx >>= k)) := by
  obtain ⟨hbelow, -⟩ := quartet_bounds hi hp
  refine bind (lLen_lt_cells hi) (fun f hf => ?_) hk
  obtain ⟨i, hlt, hload⟩ := State.loadQuartet_error hf
  exact ⟨i, by omega, hload⟩

theorem decBodyStep (hi : Inv s) (hp : s.phase = .decBody) : NextOrUnwritten s (decBodyStep s) := by
  refine quartet hi (.inl hp) fun c => ?_
  dsimp only
  split_ifs
  · exact storeDst (quartet_bounds hi (.inl hp)).2
  · exact next _

theorem decFinalStep (hi : Inv s) (hp : s.phase = .decFinal) : NextOrUnwritten s (decFinalStep s) := by
  refine quartet hi (.inr hp) fun c => ?_
  dsimp only
  split_ifs
  · have hbytes := finalBytes_length_le (decQuartet c.c0 c.c1 c.c2 c.c3 true)
    have hroom := (quartet_bounds hi (.inr hp)).2
    exact storeDst (by omega)
  · exact next _

theorem coreStep (hi : Inv s) : NextOrUnwritten s (coreStep s) := by
  unfold Machine.coreStep
  split
  next => exact next s
  next => exact startStep (lLen_lt_cells hi)
  next hp => exact encGroupStep hi hp
  next hp => exact decBodyStep hi hp
  next hp => exact decFinalStep hi hp

end NextOrUnwritten

/-- Settles O46: a CORE step goes on or meets an unwritten cell, and a loaded source has none. -/
theorem loadedCoreNeverStops : Obligations.LoadedCoreNeverStops := by
  unfold Obligations.LoadedCoreNeverStops
  intro s hi
  obtain ⟨t, ht⟩ | ⟨hfault, i, hlt, hread⟩ := NextOrUnwritten.coreStep hi
  · refine ⟨fun f hf => ?_, fun _ => ⟨t, ht⟩⟩
    rw [ht] at hf
    cases hf
  · refine ⟨fun f hf => ?_, fun hloaded => absurd hread (hloaded i hlt)⟩
    rw [hfault] at hf
    cases hf
    exact ⟨rfl, i, hlt, hread⟩

/-! ### A step that goes on found its cells written -/

theorem State.loadSrc_ok_read {s : State} {i : Nat} {b : Byte} (h : s.loadSrc i = .ok b) : s.src.read i ≠ none := by
  rw [(State.loadSrc_ok.mp h).2]
  exact Option.some_ne_none b

theorem coreStep_fault_of_not_next {s : State} (hi : Inv s) (h : ∀ t, coreStep s ≠ .next t) :
    coreStep s = .fault .srcUnwritten := by
  obtain ⟨t, ht⟩ | ⟨hfault, -⟩ := NextOrUnwritten.coreStep hi
  · exact absurd ht (h t)
  · exact hfault

theorem State.loadQuartet_reads {s : State} {q i : Nat} {c : Chars} (h : s.loadQuartet q = .ok c) (hlo : 4 * q ≤ i)
    (hhi : i < 4 * q + 4) : s.src.read i ≠ none := by
  obtain ⟨h0, h1, h2, h3⟩ := State.loadQuartet_ok.mp h
  obtain rfl | rfl | rfl | rfl : i = 4 * q ∨ i = 4 * q + 1 ∨ i = 4 * q + 2 ∨ i = 4 * q + 3 := by omega
  · exact State.loadSrc_ok_read h0
  · exact State.loadSrc_ok_read h1
  · exact State.loadSrc_ok_read h2
  · exact State.loadSrc_ok_read h3

theorem State.loadGroup_reads {s : State} {q k i : Nat} {g : Group} (h : s.loadGroup q k = .ok g) (hk : k ≤ 3)
    (hlo : 3 * q ≤ i) (hhi : i < 3 * q + k) : s.src.read i ≠ none := by
  obtain ⟨h0, h1, h2⟩ := State.loadGroup_ok.mp h
  rw [State.loadSrcIf_ok] at h1 h2
  obtain rfl | rfl | rfl : i = 3 * q ∨ i = 3 * q + 1 ∨ i = 3 * q + 2 := by omega
  · exact State.loadSrc_ok_read h0
  · rw [if_pos (by simp; omega)] at h1
    exact State.loadSrc_ok_read h1
  · rw [if_pos (by simp; omega)] at h2
    exact State.loadSrc_ok_read h2

/-- A DECODE past PARAM and LENGTH reads its padding next (R190). -/
theorem startStep_decode {s : State} (hw : s.lCmd = 0x79) (hpos : 0 < s.lLen) (hmul : s.lLen % 4 = 0)
    (hcap : 0 < s.lCap) :
    startStep s = outcomeOf (do let p ← s.sourcePad; return (s.setPadc p).checkCapacity) := by
  have hdec : decode s.lCmd = .ok (.decode true true true) := by
    rw [hw]
    decide
  rw [startStep, hdec]
  simp only [exec]
  rw [execDecode, if_neg (by simp; omega), if_neg (by simp [lenErr, hmul])]

/-- No padding can be read off a source whose last character, or last but one where it is needed, is unwritten. -/
theorem not_sourcePad_of_unwritten {m : Memory} {n p : Nat}
    (h : m.read (n - 1) = none ∨ (m.read (n - 1) = some padChar ∧ m.read (n - 2) = none)) : ¬ SourcePad m n p := by
  rcases h with h | ⟨h1, h2⟩
  · simp [SourcePad, h]
  · simp [SourcePad, h1, h2]

/-- Settles O45: a CORE step goes on or is F_SRC_UNWRITTEN (O46's lemma), and one that goes on found the cells
written. -/
theorem unwrittenSourceFaults : Obligations.UnwrittenSourceFaults := by
  unfold Obligations.UnwrittenSourceFaults
  intro s hi
  refine ⟨?_, ?_, ?_⟩
  · intro hp hw hpos hmul hcap hread
    refine coreStep_fault_of_not_next hi fun t h => ?_
    rw [coreStep, hp] at h
    simp only [startStep_decode hw hpos hmul hcap, outcomeOf_next, bind_ok] at h
    obtain ⟨p, hpad, -⟩ := h
    exact not_sourcePad_of_unwritten hread ((State.sourcePad_ok hpos (lLen_lt_cells hi)).mp hpad)
  · rintro hp ⟨i, hlo, hhi, hlt, hread⟩
    refine coreStep_fault_of_not_next hi fun t h => ?_
    rw [coreStep, hp] at h
    obtain ⟨-, g, hg, -⟩ := encGroupStep_next h
    have hdue : i < 3 * s.qidx + s.groupLen := by
      unfold State.groupLen
      omega
    exact State.loadGroup_reads hg (Nat.min_le_left _ _) hlo hdue hread
  · rintro hp ⟨i, hlo, hhi, hread⟩
    refine coreStep_fault_of_not_next hi fun t h => ?_
    have hload : ∃ c, s.loadQuartet s.qidx = .ok c := by
      rcases hp with hp | hp <;> rw [coreStep, hp] at h
      · exact (decBodyStep_next h).imp fun c hc => hc.1
      · exact (decFinalStep_next h).imp fun c hc => hc.1
    obtain ⟨c, hc⟩ := hload
    exact State.loadQuartet_reads hc hlo hhi hread

end Sys2Proof.Machine
end

section
/-! PROOFS. Noninterference of SRC past L_LEN: two buffers that agree on the cells below it give the same CORE step. -/

namespace Sys2Proof.Machine

open Sys2Proof.Safety

/-! ### The same but for SRC -/

/-- `s` with the contents `m` in SRC. -/
def State.withSrc (s : State) (m : Memory) : State := { s with src := m }

/-- `y` is `x`, but a next state has the contents `m` in SRC. -/
def SameButSrc (m : Memory) (x y : Host.Outcome State Fault Refusal) : Prop := y = mapNext (·.withSrc m) x

/-- The buffer `m` agrees with SRC on the cells below L_LEN. -/
def AgreesBelow (s : State) (m : Memory) : Prop := ∀ i < s.lLen, m.read i = s.src.read i

section OtherSource

variable {s : State} {m : Memory}

theorem loadSrc_withSrc {i : Nat} (h : m.read i = s.src.read i) : (s.withSrc m).loadSrc i = s.loadSrc i := by
  simp only [State.loadSrc, State.withSrc, h]

theorem loadSrcIf_withSrc {c : Bool} {i : Nat} (h : c = true → m.read i = s.src.read i) :
    (s.withSrc m).loadSrcIf c i = s.loadSrcIf c i := by
  cases c
  · rfl
  · exact loadSrc_withSrc (h rfl)

theorem loadQuartet_withSrc {q : Nat} (h : ∀ i < 4 * q + 4, m.read i = s.src.read i) :
    (s.withSrc m).loadQuartet q = s.loadQuartet q := by
  unfold State.loadQuartet
  rw [loadSrc_withSrc (h _ (by omega)), loadSrc_withSrc (h _ (by omega)), loadSrc_withSrc (h _ (by omega)),
    loadSrc_withSrc (h _ (by omega))]

theorem loadGroup_withSrc {g k : Nat} (hk : 0 < k) (h : ∀ i < 3 * g + k, m.read i = s.src.read i) :
    (s.withSrc m).loadGroup g k = s.loadGroup g k := by
  have h1 : decide (2 ≤ k) = true → m.read (3 * g + 1) = s.src.read (3 * g + 1) := by
    rw [decide_eq_true_iff]
    exact fun hk2 => h _ (by omega)
  have h2 : (k == 3) = true → m.read (3 * g + 2) = s.src.read (3 * g + 2) := by
    rw [beq_iff_eq]
    exact fun hk3 => h _ (by omega)
  unfold State.loadGroup
  rw [loadSrc_withSrc (h _ (by omega)), loadSrcIf_withSrc h1, loadSrcIf_withSrc h2]

theorem loadQuartet_withSrc_of_inv (hi : Inv s) (hp : s.phase = .decBody ∨ s.phase = .decFinal)
    (h : AgreesBelow s m) : (s.withSrc m).loadQuartet s.qidx = s.loadQuartet s.qidx := by
  obtain ⟨hbelow, -⟩ := quartet_bounds hi hp
  exact loadQuartet_withSrc fun i hlt => h i (by omega)

theorem loadGroup_withSrc_of_inv (hi : Inv s) (hp : s.phase = .encGrp) (h : AgreesBelow s m) :
    (s.withSrc m).loadGroup s.qidx s.groupLen = s.loadGroup s.qidx s.groupLen := by
  obtain ⟨hpos, hbelow⟩ := groupLen_bounds hi hp
  exact loadGroup_withSrc hpos fun i hlt => h i (by omega)

theorem sourcePad_withSrc (hpos : 0 < s.lLen) (h : AgreesBelow s m) : (s.withSrc m).sourcePad = s.sourcePad := by
  have hlen : (s.withSrc m).lLen = s.lLen := rfl
  unfold State.sourcePad
  rw [hlen, loadSrc_withSrc (h _ (by omega)), loadSrc_withSrc (h _ (by omega))]

theorem endGroup_withSrc : (s.withSrc m).endGroup = s.endGroup.withSrc m := by
  simp only [State.endGroup, apply_ite (State.withSrc · m)]
  rfl

theorem checkCapacity_withSrc : (s.withSrc m).checkCapacity = s.checkCapacity.withSrc m := by
  simp only [State.checkCapacity, apply_ite (State.withSrc · m)]
  rfl

theorem endBody_withSrc : (s.withSrc m).endBody = s.endBody.withSrc m := by
  simp only [State.endBody, apply_ite (State.withSrc · m)]
  rfl

namespace SameButSrc

theorem next (t : State) : SameButSrc m (.next t) (.next (t.withSrc m)) := rfl

theorem ite {c : Prop} [Decidable c] {x y x' y' : Host.Outcome State Fault Refusal} (hyes : SameButSrc m x y)
    (hno : SameButSrc m x' y') : SameButSrc m (if c then x else x') (if c then y else y') := by
  split_ifs
  · exact hyes
  · exact hno

/-- The same load, and the same but for SRC from there on. -/
theorem bind {α : Type} {e e' : Except Fault α} {k k' : α → Except Fault State} (he : e' = e)
    (hk : ∀ a, SameButSrc m (outcomeOf (k a)) (outcomeOf (k' a))) :
    SameButSrc m (outcomeOf (e >>= k)) (outcomeOf (e' >>= k')) := by
  subst he
  cases e' with
  | error f => rfl
  | ok a => exact hk a

theorem storeDst {i : Nat} {bs : List Byte} {k : State → State}
    (hk : k ((s.putDst i bs).withSrc m) = (k (s.putDst i bs)).withSrc m) :
    SameButSrc m (outcomeOf (do let u ← s.storeDst i bs; return k u))
      (outcomeOf (do let u ← (s.withSrc m).storeDst i bs; return k u)) := by
  have hcells : (s.withSrc m).lenW = s.lenW := rfl
  unfold State.storeDst
  rw [hcells]
  split_ifs
  · exact congrArg Host.Outcome.next hk
  · rfl

theorem exec (i : Instr) (h : AgreesBelow s m) : SameButSrc m (exec i s) (exec i (s.withSrc m)) := by
  cases i with
  | enclut => exact next _
  | declut => exact next _
  | encsize => exact next _
  | decsize => exact .ite (next _) (next _)
  | encgrp k => exact .ite (next _) (next _)
  | decquad final => exact next _
  | encode x y z => exact .ite (next _) (.ite (next _) (.ite (next _) (next _)))
  | decode x y z =>
    rcases Nat.eq_zero_or_pos s.lLen with hzero | hpos
    · have hzero' : (s.withSrc m).lLen = 0 := hzero
      simp only [Machine.exec, execDecode, hzero, hzero', beq_self_eq_true, Bool.or_true, Bool.true_or, if_true]
      exact next _
    · exact .ite (next _) (.ite (next _) (.bind (sourcePad_withSrc hpos h) fun p =>
        congrArg Host.Outcome.next (checkCapacity_withSrc (s := s.setPadc p))))

theorem startStep (h : AgreesBelow s m) : SameButSrc m (startStep s) (startStep (s.withSrc m)) := by
  have hword : (s.withSrc m).lCmd = s.lCmd := rfl
  unfold Machine.startStep
  rw [hword]
  cases decode s.lCmd with
  | ok i => exact exec i h
  | error e => exact next _

theorem encGroupStep (hi : Inv s) (hp : s.phase = .encGrp) (h : AgreesBelow s m) :
    SameButSrc m (encGroupStep s) (encGroupStep (s.withSrc m)) :=
  .ite rfl (.bind (loadGroup_withSrc_of_inv hi hp h) fun _ => storeDst endGroup_withSrc)

theorem decBodyStep (hi : Inv s) (hp : s.phase = .decBody) (h : AgreesBelow s m) :
    SameButSrc m (decBodyStep s) (decBodyStep (s.withSrc m)) := by
  refine .bind (loadQuartet_withSrc_of_inv hi (.inl hp) h) fun c => ?_
  dsimp only
  split_ifs
  · exact storeDst endBody_withSrc
  · exact next _

theorem decFinalStep (hi : Inv s) (hp : s.phase = .decFinal) (h : AgreesBelow s m) :
    SameButSrc m (decFinalStep s) (decFinalStep (s.withSrc m)) := by
  refine .bind (loadQuartet_withSrc_of_inv hi (.inr hp) h) fun c => ?_
  dsimp only
  split_ifs
  · exact storeDst (k := (·.endFinal _)) rfl
  · exact next _

theorem coreStep (hi : Inv s) (h : AgreesBelow s m) : SameButSrc m (coreStep s) (coreStep (s.withSrc m)) := by
  have hphase : (s.withSrc m).phase = s.phase := rfl
  unfold Machine.coreStep
  rw [hphase]
  cases hp : s.phase with
  | idle => exact next s
  | start => exact startStep h
  | encGrp => exact encGroupStep hi hp h
  | decBody => exact decBodyStep hi hp h
  | decFinal => exact decFinalStep hi hp h

end SameButSrc

end OtherSource

/-- Settles O34: every load reads below L_LEN, where the buffers agree, and nothing else of a CORE step reads SRC. -/
theorem coreReadsOnlyLatchedLength : Obligations.CoreReadsOnlyLatchedLength := by
  unfold Obligations.CoreReadsOnlyLatchedLength
  intro s m hi h
  exact SameButSrc.coreStep hi h

end Sys2Proof.Machine
end

section
/-! PROOFS. The command word: every field of a packed word reads back (R80), so a well-formed command is decoded from
its encoding and from that word only, and the words that decode are the legal ones of R86. -/

namespace Sys2Proof

/-! ### The fields of a packed word -/

section PackedFields

variable (aux : BitVec 2) (lenP dstP srcP : Bool) (op : BitVec 4)

/-- The layout of R80, bit by bit. -/
theorem getLsbD_packCmd (k : Nat) : (packCmd aux lenP dstP srcP op).getLsbD k =
    if k < 4 then op.getLsbD k else if k = 4 then srcP else if k = 5 then dstP else if k = 6 then lenP
    else if k = 7 then false else aux.getLsbD (k - 8) := by
  simp only [packCmd, BitVec.getLsbD_append, BitVec.getLsbD_ofBool, BitVec.getLsbD_zero]
  by_cases hk : k < 10
  · interval_cases k <;> simp
  · have haux : aux.getLsbD (k - 8) = false := BitVec.getLsbD_of_ge aux (k - 8) (by omega)
    rw [haux]
    grind

@[simp] theorem cmdReservedClear_packCmd : cmdReservedClear (packCmd aux lenP dstP srcP op) = true := by
  have hhigh : (packCmd aux lenP dstP srcP op).extractLsb' 10 22 = 0 := by
    apply BitVec.eq_of_getLsbD_eq
    intro k hk
    simp only [BitVec.getLsbD_extractLsb', getLsbD_packCmd]
    grind
  simp only [cmdReservedClear, hhigh, getLsbD_packCmd]
  rfl

@[simp] theorem cmdOp_packCmd : cmdOp (packCmd aux lenP dstP srcP op) = op := BitVec.extractLsb'_append_eq_right

@[simp] theorem cmdSrcP_packCmd : cmdSrcP (packCmd aux lenP dstP srcP op) = srcP := getLsbD_packCmd ..

@[simp] theorem cmdDstP_packCmd : cmdDstP (packCmd aux lenP dstP srcP op) = dstP := getLsbD_packCmd ..

@[simp] theorem cmdLenP_packCmd : cmdLenP (packCmd aux lenP dstP srcP op) = lenP := getLsbD_packCmd ..

@[simp] theorem cmdPresence_packCmd : cmdPresence (packCmd aux false false false op) = 0 := by
  apply BitVec.eq_of_getLsbD_eq
  intro k hk
  simp only [cmdPresence, BitVec.getLsbD_extractLsb', getLsbD_packCmd]
  interval_cases k <;> rfl

@[simp] theorem cmdAux_packCmd : cmdAux (packCmd aux lenP dstP srcP op) = aux := by
  apply BitVec.eq_of_getLsbD_eq
  intro k hk
  simp only [cmdAux, BitVec.getLsbD_extractLsb', getLsbD_packCmd]
  interval_cases k <;> rfl

end PackedFields

/-- The decoder reads a well-formed command back from its word (R80, R81, R82, R84). -/
theorem decode_encode {i : Instr} (h : i.wellFormed = true) : decode (encode i) = .ok i := by
  cases i with
  | enclut | declut | encsize | decsize => simp [encode, decode, cmdIf]
  | encgrp k =>
    have hk : k ≠ 0#2 := by simpa [Instr.wellFormed] using h
    simp [encode, decode, cmdIf, hk]
  | decquad final =>
    have h8 : (encode (.decquad final)).getLsbD 8 = final := by cases final <;> rfl
    have h9 : (encode (.decquad final)).getLsbD 9 = false := by cases final <;> rfl
    rw [decode, h8, h9]
    simp [encode, cmdIf]
  | encode srcP dstP lenP | decode srcP dstP lenP => simp [encode, decode, cmdIf]

/-- Settles O9: the fields of the packed word read back, and the decoder looks at nothing else. -/
theorem decodeEncodeAgree : Obligations.DecodeEncodeAgree := by
  unfold Obligations.DecodeEncodeAgree
  exact fun i h => decode_encode h

/-- Settles O8: each word is written out in R88 or R81, and the decoder evaluates on it. -/
theorem notationWordsDecode : Obligations.NotationWordsDecode := by
  unfold Obligations.NotationWordsDecode
  decide

/-! ### A word that decodes -/

/-- The decoder gives no ENCGRP with K = 0: its only word is the reserved 0x00000005 (R84). -/
theorem wellFormed_of_decode {w : Word} {i : Instr} (h : decode w = .ok i) : i.wellFormed = true := by
  cases i with
  | encgrp k =>
    by_contra hk
    obtain rfl : k = 0 := by simpa [Instr.wellFormed] using hk
    rw [← encode_of_decode h] at h
    exact absurd h (by decide)
  | enclut | declut | encsize | decsize | decquad | encode | decode => rfl

/-- Settles O11: the word holds nothing that its command does not spell, and K = 0 is not decoded. -/
theorem decodedWordIsEncoding : Obligations.DecodedWordIsEncoding := by
  unfold Obligations.DecodedWordIsEncoding
  exact fun w i h => ⟨wellFormed_of_decode h, encode_of_decode h⟩

/-! ### Legal words (R86) -/

/-- With bit [7] clear, bits [9:4] are 0 exactly when the presence bits and AUX are (R86). -/
theorem operandBits_eq_zero {w : Word} (h7 : w.getLsbD 7 = false) :
    w.extractLsb' 4 6 = 0 ↔ cmdPresence w = 0 ∧ cmdAux w = 0 := by
  have hsplit : w.extractLsb' 4 6 = cmdAux w ++ BitVec.ofBool (w.getLsbD 7) ++ cmdPresence w := by
    apply BitVec.eq_of_getLsbD_eq
    intro k hk
    simp only [cmdAux, cmdPresence, BitVec.getLsbD_append, BitVec.getLsbD_ofBool, BitVec.getLsbD_extractLsb']
    interval_cases k <;> rfl
  have hzero : ∀ (aux : BitVec 2) (presence : BitVec 3),
      aux ++ BitVec.ofBool false ++ presence = 0 ↔ presence = 0 ∧ aux = 0 := by decide
  rw [hsplit, h7, hzero]

/-- R86's condition, case by case. -/
theorem legalCmd_iff {w : Word} : legalCmd w = true ↔
    w.extractLsb' 10 22 = 0 ∧ w.getLsbD 7 = false ∧
      ((((cmdOp w).toNat = 0x1 ∨ (cmdOp w).toNat = 0x2 ∨ (cmdOp w).toNat = 0x3 ∨ (cmdOp w).toNat = 0x4) ∧
          w.extractLsb' 4 6 = 0) ∨
        ((cmdOp w).toNat = 0x5 ∧ cmdPresence w = 0 ∧ cmdAux w ≠ 0) ∨
        ((cmdOp w).toNat = 0x6 ∧ cmdPresence w = 0 ∧ w.getLsbD 9 = false) ∨
        (((cmdOp w).toNat = 0x8 ∨ (cmdOp w).toNat = 0x9) ∧ cmdAux w = 0)) := by
  have hclear : cmdReservedClear w = true ↔ w.extractLsb' 10 22 = 0 ∧ w.getLsbD 7 = false := by
    simp [cmdReservedClear]
  rw [legalCmd, Bool.and_eq_true, hclear, and_assoc]
  refine and_congr_right fun _ => and_congr_right fun _ => ?_
  split <;> simp_all

/-- The word of a well-formed command is legal, whichever command it is (R86). -/
theorem legalCmd_encode {i : Instr} (h : i.wellFormed = true) : legalCmd (encode i) = true := by
  cases i with
  | enclut => exact (Laws.EncodesLegally.enclut h).1
  | declut => exact (Laws.EncodesLegally.declut h).1
  | encsize => exact (Laws.EncodesLegally.encsize h).1
  | decsize => exact (Laws.EncodesLegally.decsize h).1
  | encgrp k => exact (Laws.EncodesLegally.encgrp k h).1
  | decquad final => exact (Laws.EncodesLegally.decquad final h).1
  | encode srcP dstP lenP => exact (Laws.EncodesLegally.encode srcP dstP lenP h).1
  | decode srcP dstP lenP => exact (Laws.EncodesLegally.decode srcP dstP lenP h).1

/-- Every case of R86 meets the guards of its OP in the decoder. -/
theorem decode_of_legalCmd {w : Word} (h : legalCmd w = true) : ∃ i, decode w = .ok i := by
  obtain ⟨hhigh, h7, hcase⟩ := legalCmd_iff.mp h
  have hclear : cmdReservedClear w = true := by rw [cmdReservedClear, hhigh, h7]; rfl
  rcases hcase with ⟨hop, hbits⟩ | ⟨hop, hpres, haux⟩ | ⟨hop, hpres, h9⟩ | ⟨hop, haux⟩
  · obtain ⟨hpres, haux⟩ := (operandBits_eq_zero h7).mp hbits
    rcases hop with hop | hop | hop | hop <;> simp [decode, cmdIf, hclear, hop, hpres, haux]
  · exact ⟨.encgrp (cmdAux w), by simp_all [decode, cmdIf]⟩
  · exact ⟨.decquad (w.getLsbD 8), by simp_all [decode, cmdIf]⟩
  · rcases hop with hop | hop <;> simp [decode, cmdIf, hclear, hop, haux]

theorem legalCmd_iff_decode {w : Word} : legalCmd w = true ↔ ∃ i, decode w = .ok i := by
  refine ⟨decode_of_legalCmd, ?_⟩
  rintro ⟨i, hi⟩
  rw [← encode_of_decode hi]
  exact legalCmd_encode (wellFormed_of_decode hi)

/-- Settles O10: the model's cases are R86's; a legal word passes the decoder's guards, and a decoded word is the
encoding of a well-formed command, which is legal. -/
theorem decodesIffLegal : Obligations.DecodesIffLegal := by
  unfold Obligations.DecodesIffLegal
  exact fun w => ⟨legalCmd_iff, legalCmd_iff_decode⟩

/-- The reserved space of R87: each of its patterns contradicts every case of R86. -/
theorem legalCmd_eq_false_of_reserved {w : Word}
    (h : (cmdOp w).toNat = 0x0 ∨ (cmdOp w).toNat = 0x7 ∨ 0xA ≤ (cmdOp w).toNat ∨
      w.extractLsb' 10 22 ≠ 0 ∨ w.getLsbD 7 = true ∨ ((cmdOp w).toNat < 0x8 ∧ cmdPresence w ≠ 0) ∨
      ((cmdOp w).toNat = 0x5 ∧ cmdAux w = 0) ∨ ((cmdOp w).toNat = 0x6 ∧ w.getLsbD 9 = true) ∨
      ((cmdOp w).toNat ≠ 0x5 ∧ (cmdOp w).toNat ≠ 0x6 ∧ cmdAux w ≠ 0)) : legalCmd w = false := by
  rw [← Bool.not_eq_true, legalCmd_iff]
  rintro ⟨hhigh, h7, hcase⟩
  rw [operandBits_eq_zero h7] at hcase
  rcases hcase with ⟨hop, hpres, haux⟩ | ⟨hop, hpres, haux⟩ | ⟨hop, hpres, h9⟩ | ⟨hop, haux⟩
  all_goals grind

end Sys2Proof
end

section
/-! PROOFS. The START step of a reserved word (R87), and WAIT, one poll a Host step (R89). -/

namespace Sys2Proof.Machine

/-! ### Reserved words -/

/-- The START step of a word that is no command (R87). -/
theorem startStep_of_illegal {s : State} (h : legalCmd s.lCmd = false) :
    startStep s = .next (s.finish .badOp 0 0) := by
  cases hd : decode s.lCmd with
  | ok i => simp [legalCmd_iff_decode.mpr ⟨i, hd⟩] at h
  | error e => rw [startStep, hd]

/-- Settles O12: the reserved space is illegal, an illegal word decodes to nothing, and an OUT_LEN of 0 fits. -/
theorem reservedWordsEndInBadOp : Obligations.ReservedWordsEndInBadOp := by
  unfold Obligations.ReservedWordsEndInBadOp
  refine ⟨fun w h => legalCmd_eq_false_of_reserved h, fun s h => ?_⟩
  rw [startStep_of_illegal h, State.finish, State.fit_zero]

/-! ### WAIT -/

/-- The Host moves when it has an action left and the CORE is idle or the interleaving gives it the turn (R72). -/
theorem State.nextAgent_host {s : State} (hprog : s.program ≠ [])
    (hturn : s.phase = .idle ∨ s.turns.head? = some .host) : s.nextAgent = some .host := by
  by_cases hidle : s.phase = .idle
  · simp [State.nextAgent, State.choice, hidle, hprog]
  · have hhead : s.turns.head? = some .host := hturn.resolve_left hidle
    rw [State.nextAgent, if_pos ((s.choice_iff).mpr ⟨hidle, hprog⟩), List.headD_eq_head?_getD, hhead]
    rfl

/-- A Host step whose action answers goes on from its answer. -/
theorem hostStep_of_hostAct {s t : State} {op : HostOp} {rest : List HostOp} (hprog : s.program = op :: rest)
    (hact : hostAct op s = .ok t) : hostStep s = .next (if hostOpOver op s then t.setProgram rest else t) := by
  simp [hostStep, hprog, hact, bind, Except.bind, pure, Except.pure]

theorem stat_done (s : State) : s.stat.getLsbD 1 = s.done := (statWord_fields s.status.code s.done s.busy).2.1

/-- Settles O40: the step is the Host's, its poll logs STAT, and bit 1 of STAT is DONE, which ends the WAIT. -/
theorem waitPollsUntilDone : Obligations.WaitPollsUntilDone := by
  unfold Obligations.WaitPollsUntilDone
  intro s rest hprog hturn
  obtain ⟨ts, htaken⟩ := s.takeTurn_eq
  have hpoll : hostAct .wait (s.setTurns ts) = .ok ((s.setTurns ts).logRead (.reg 0x10 s.stat)) := rfl
  have hover : hostOpOver .wait (s.setTurns ts) = s.done := rfl
  refine ⟨ts, ?_⟩
  rw [step, State.nextAgent_host (by simp [hprog]) hturn, htaken]
  refine (hostStep_of_hostAct (s := s.setTurns ts) hprog hpoll).trans ?_
  rw [hover, stat_done]
  split_ifs
  · rfl
  · rw [← hprog]
    rfl

end Sys2Proof.Machine
end

section
/-! PROOFS. The contents of the two ROMs (R111, R114), what a lookup in DEC_ROM can give, and the commands that return
one word of a ROM (R117, R118). -/

namespace Sys2Proof.Machine

/-! ### ENC_ROM, range by range (R111) -/

theorem encRom_upper : ∀ a : Byte, a.toNat ≤ 25 → (encRom a).toNat = 0x41 + a.toNat := by decide

theorem encRom_lower : ∀ a : Byte, 26 ≤ a.toNat → a.toNat ≤ 51 → (encRom a).toNat = 0x61 + (a.toNat - 26) := by decide

theorem encRom_digit : ∀ a : Byte, 52 ≤ a.toNat → a.toNat ≤ 61 → (encRom a).toNat = 0x30 + (a.toNat - 52) := by decide

theorem encRom_plus : ∀ a : Byte, a.toNat = 62 → encRom a = 0x2B := by decide

theorem encRom_slash : ∀ a : Byte, a.toNat = 63 → encRom a = 0x2F := by decide

theorem encRom_of_ge : ∀ a : Byte, 64 ≤ a.toNat → encRom a = 0x00 := by decide

theorem encRomWords_length : encRomWords.length = 256 := by
  simp only [encRomWords, List.length_append]
  rfl

/-- Settles O1: the ranges of the formula one by one; a 6-bit field extended to 8 bits keeps its value. -/
theorem encRomFormula : Obligations.EncRomFormula := by
  unfold Obligations.EncRomFormula
  refine ⟨fun a => ⟨encRom_upper a, encRom_lower a, encRom_digit a, encRom_plus a, encRom_slash a, encRom_of_ge a⟩,
    encRomWords_length, fun v => ⟨rfl, ?_⟩⟩
  rw [BitVec.toNat_setWidth_of_le (by decide)]
  exact v.isLt

/-! ### DEC_ROM (R114) -/

@[simp] theorem decRom_encField : ∀ i : BitVec 6, decRom (encField i) = i.setWidth 8 := by decide

@[simp] theorem decRom_padChar : decRom padChar = 0x40 := by decide

/-- A byte reads 0x80, or is `=`, or is the symbol of its own VAL field: the three kinds of DEC_ROM word (R113, R114). -/
theorem decRom_kinds : ∀ x : Byte, decRom x = 0x80 ∨ x = padChar ∨ encField (val x) = x := by decide

theorem decRomWords_length : decRomWords.length = 256 := by
  simp only [decRomWords, List.length_append]
  rfl

theorem decRomWords_symbol_count : (decRomWords.filter (fun w => w.extractLsb' 6 2 == 0)).length = 64 := by decide

theorem decRomWords_pad_count : (decRomWords.filter (fun w => w == 0x40)).length = 1 := by decide

theorem decRomWords_invalid_count : (decRomWords.filter (fun w => w == 0x80)).length = 191 := by
  simp only [decRomWords, List.filter_append, List.length_append]
  rfl

/-- A byte that is neither a symbol nor `=` reads 0x80 (R114). -/
theorem decRom_of_invalid {x : Byte} (hpad : x ≠ padChar) (hsym : ∀ i : BitVec 6, x ≠ encField i) :
    decRom x = 0x80 := by
  obtain hx | hx | hx := decRom_kinds x
  · exact hx
  · exact absurd hx hpad
  · exact absurd hx.symm (hsym (val x))

/-- Settles O2: the three kinds of DEC_ROM word, and their counts over the 256 words. -/
theorem decRomContents : Obligations.DecRomContents := by
  unfold Obligations.DecRomContents
  exact ⟨decRom_encField, decRom_padChar, fun x => decRom_of_invalid, decRomWords_length, decRomWords_symbol_count,
    decRomWords_pad_count, decRomWords_invalid_count⟩

/-! ### The functions over DEC_ROM, and the two ROMs as inverses (R116, R119) -/

section Invalid

variable {x : Byte} (hx : decRom x = 0x80)

include hx

theorem legal_of_invalid : legal x = false := by rw [legal, hx]; decide

theorem val_of_invalid : val x = 0 := by rw [val, hx]; decide

end Invalid

/-- A legal byte is the symbol of its VAL field (R119). -/
theorem encField_val {x : Byte} (h : legal x = true) : encField (val x) = x := by
  obtain hx | rfl | hx := decRom_kinds x
  · simp [legal_of_invalid hx] at h
  · simp at h
  · exact hx

/-- The legal bytes are the 64 alphabet symbols (R116). -/
theorem legal_iff_symbol {x : Byte} : legal x = true ↔ ∃ i : BitVec 6, x = encField i := by
  constructor
  · exact fun h => ⟨val x, (encField_val h).symm⟩
  · rintro ⟨i, rfl⟩
    exact legal_encField i

/-- The PAD bit is set in the word of `=` only (R113, R114). -/
theorem isPad_iff_padBit {x : Byte} : isPad x = true ↔ (decRom x).getLsbD 6 = true := by
  rw [isPad_iff]
  obtain hx | rfl | hx := decRom_kinds x
  · have hne : x ≠ padChar := by
      rintro rfl
      simp at hx
    simp [hx, hne]
  · simp
  · rw [← hx, decRom_encField]
    simp

/-- The VAL field is 0 in the words of `=` and of every invalid byte (R116). -/
theorem val_of_not_legal {x : Byte} (h : legal x = false) : val x = 0 := by
  obtain hx | rfl | hx := decRom_kinds x
  · exact val_of_invalid hx
  · exact val_padChar
  · rw [← hx, legal_encField] at h
    contradiction

/-- Settles O3: each function reads one field of the DEC_ROM word, and the word is of one of three kinds. -/
theorem legalPadVal : Obligations.LegalPadVal := by
  unfold Obligations.LegalPadVal
  exact fun x => ⟨legal_iff_symbol, beq_iff_eq, isPad_iff x, isPad_iff_padBit, rfl, val_of_not_legal, legal_padChar⟩

/-- Settles O4: `encField` is the ENC_ROM lookup of a 6-bit field, and `val` undoes it on the symbols. -/
theorem romsInverse : Obligations.RomsInverse := by
  unfold Obligations.RomsInverse
  exact ⟨fun v => ⟨decRom_encField v, legal_encField v⟩, fun x => encField_val⟩

/-! ### ENCLUT and DECLUT (R117, R118) -/

/-- A command that ends with OUT_LEN = 0 (R231): 0 fits every LEN_W. -/
theorem State.finish_outLen_zero (s : State) (st : Status) (r : Word) :
    s.finish st 0 r = { s with status := st, outLen := 0, result := r, done := true, phase := .idle } := by
  rw [State.finish, State.fit_zero]

/-- Settles O16: exec of ENCLUT is finish(OK, 0, ENC_ROM word), and ENC_ROM is 0 from address 64 on. -/
theorem enclutResult : Obligations.EnclutResult := by
  unfold Obligations.EnclutResult
  obtain ⟨hdecode, -⟩ := notationWordsDecode
  refine ⟨hdecode, fun s => ⟨?_, fun h => ?_⟩⟩
  · exact congrArg Host.Outcome.next (s.finish_outLen_zero ..)
  · rw [encRom_of_ge _ h]
    rfl

/-- Settles O17: exec of DECLUT is finish(OK, 0, DEC_ROM word). -/
theorem declutResult : Obligations.DeclutResult := by
  unfold Obligations.DeclutResult
  obtain ⟨-, hdecode, -⟩ := notationWordsDecode
  refine ⟨hdecode, decRom_padChar, by decide, by decide, fun s => ?_⟩
  exact congrArg Host.Outcome.next (s.finish_outLen_zero ..)

end Sys2Proof.Machine
end

section
/-! PROOFS. The size functions (R131, R132), their laws (R135), and the commands that return one size (R133, R134). -/

namespace Sys2Proof.Machine

/-! ### The encoded size (R131) -/

/-- With one more bit a register holds twice the values a LEN_W-bit one does. -/
theorem two_pow_bits_succ (w : LenW) : 2 ^ (w.bits + 1) = 2 * w.cells := by rw [pow_succ, LenW.cells, mul_comm]

@[simp] theorem encodedSize_zero : encodedSize 0 = 0 := rfl

theorem encodedSize_mono {m n : Nat} (h : m ≤ n) : encodedSize m ≤ encodedSize n :=
  Nat.mul_le_mul_left 4 (Nat.div_le_div_right (Nat.add_le_add_right h 2))

@[simp] theorem encodedSize_mod_four (n : Nat) : encodedSize n % 4 = 0 := Nat.mul_mod_right 4 _

@[simp] theorem encodedSize_div_four (n : Nat) : encodedSize n / 4 = (n + 2) / 3 := Nat.mul_div_right _ (by decide)

/-- The groups of the encoding cover the bytes with less than one group to spare. -/
theorem groups_cover (n : Nat) : n ≤ (n + 2) / 3 * 3 ∧ (n + 2) / 3 * 3 ≤ n + 2 := by omega

/-- The size is at most `4 * (n + 2) / 3`, which stays below `2 * cells` because a build has at least 16 cells. -/
theorem encodedSize_lt_two_pow {w : LenW} {n : Nat} (h : n < w.cells) : encodedSize n < 2 ^ (w.bits + 1) := by
  obtain ⟨hcells, -⟩ := w.cells_bounds
  rw [two_pow_bits_succ, encodedSize]
  omega

/-- Settles O5: the formula is the definition; `groups_cover` and `encodedSize_lt_two_pow` are the two bounds. -/
theorem encodedSizeExact : Obligations.EncodedSizeExact := by
  unfold Obligations.EncodedSizeExact
  refine ⟨fun n => rfl, encodedSize_zero, fun n => ?_, fun w n h => encodedSize_lt_two_pow h⟩
  rw [encodedSize_div_four]
  exact groups_cover n

/-! ### The maximum decoded size (R132) -/

@[simp] theorem lenErr_eq_false_iff {n : Nat} : lenErr n = false ↔ n % 4 = 0 := bne_eq_false_iff_eq

@[simp] theorem lenErr_eq_true_iff {n : Nat} : lenErr n = true ↔ n % 4 ≠ 0 := bne_iff_ne

theorem maxDecodedSize_of_mod_eq {n : Nat} (h : n % 4 = 0) : maxDecodedSize n = n / 4 * 3 :=
  if_neg (by simpa using h)

theorem maxDecodedSize_of_mod_ne {n : Nat} (h : n % 4 ≠ 0) : maxDecodedSize n = 0 := if_pos (lenErr_eq_true_iff.mpr h)

theorem maxDecodedSize_le (n : Nat) : maxDecodedSize n ≤ n := by
  by_cases h : n % 4 = 0
  · rw [maxDecodedSize_of_mod_eq h]
    omega
  · rw [maxDecodedSize_of_mod_ne h]
    exact n.zero_le

section Bits

variable {k : Nat} (v : BitVec k)

theorem toNat_low_bits : (v.extractLsb' 0 2).toNat = v.toNat % 4 := by simp

/-- The bits of `v` from bit 2 up, all of which are kept. -/
theorem toNat_high_bits (hk : 2 ≤ k) : (v.extractLsb' 2 (k - 2)).toNat = v.toNat / 4 := by
  have hpow : 2 ^ (k - 2) * 2 ^ 2 = 2 ^ k := pow_sub_mul_pow 2 hk
  have hlt : v.toNat / 4 < 2 ^ (k - 2) := (Nat.div_lt_iff_lt_mul (by decide)).mpr (hpow ▸ v.isLt)
  rw [BitVec.extractLsb'_toNat, Nat.shiftRight_eq_div_pow, Nat.mod_eq_of_lt hlt]

/-- `len_err` off the two low bits of `n` (R132). -/
theorem lenErr_toNat : lenErr v.toNat = (v.extractLsb' 0 2 != 0) := by
  rw [Bool.eq_iff_iff, lenErr_eq_true_iff, bne_iff_ne, ← toNat_low_bits, ne_eq, ne_eq, ← BitVec.toNat_inj]
  rfl

end Bits

/-- Settles O6: the two cases are those of `len_err`; n[1:0] is `n mod 4` and n[LEN_W-1:2] is `n / 4`. -/
theorem maxDecodedSizeCases : Obligations.MaxDecodedSizeCases := by
  unfold Obligations.MaxDecodedSizeCases
  refine ⟨fun n h => ⟨maxDecodedSize_of_mod_eq h, lenErr_eq_false_iff.mpr h⟩,
    fun n h => ⟨maxDecodedSize_of_mod_ne h, lenErr_eq_true_iff.mpr h⟩,
    fun w v => ⟨(maxDecodedSize_le _).trans_lt v.isLt, lenErr_toNat v, fun h => ?_⟩⟩
  have hbits : 2 ≤ w.bits := by rw [LenW.bits]; omega
  rw [toNat_high_bits v hbits, maxDecodedSize_of_mod_eq (lenErr_eq_false_iff.mp h)]

/-! ### The laws of R135 -/

/-- Decoding room for an encoding: three bytes a group. -/
theorem maxDecodedSize_encodedSize (n : Nat) : maxDecodedSize (encodedSize n) = (n + 2) / 3 * 3 := by
  rw [maxDecodedSize_of_mod_eq (encodedSize_mod_four n), encodedSize_div_four]

/-- Settles O7: an encoded size is a multiple of 4, so its maximum decoded size is that of its groups. -/
theorem sizeLaws : Obligations.SizeLaws := by
  unfold Obligations.SizeLaws
  refine ⟨fun m n => encodedSize_mono, encodedSize_mod_four, by decide, by decide, fun n => ?_⟩
  obtain ⟨hlow, hhigh⟩ := groups_cover n
  rw [maxDecodedSize_encodedSize]
  exact ⟨Nat.mul_comm _ 3, hlow, hhigh, lenErr_eq_false_iff.mpr (encodedSize_mod_four n)⟩

/-! ### ENCSIZE and DECSIZE (R133, R134) -/

/-- RESULT holds the encoded size of every LEN_W-bit length whole, because LEN_W + 1 is at most 32 (R133). -/
theorem toNat_ofNat_encodedSize {w : LenW} {n : Nat} (h : n < w.cells) :
    (BitVec.ofNat 32 (encodedSize n)).toNat = encodedSize n := by
  obtain ⟨-, hcells⟩ := w.cells_bounds
  have hsize := encodedSize_lt_two_pow h
  rw [two_pow_bits_succ] at hsize
  rw [BitVec.toNat_ofNat, Nat.mod_eq_of_lt (by omega)]

/-- Settles O18: exec of ENCSIZE is finish(OK, 0, encoded_size(L_LEN)), and 32 bits hold the size. -/
theorem encsizeResult : Obligations.EncsizeResult := by
  unfold Obligations.EncsizeResult
  obtain ⟨-, -, hdecode, -⟩ := notationWordsDecode
  refine ⟨hdecode, fun s => ⟨?_, fun hzero => ?_, fun h => ⟨toNat_ofNat_encodedSize h, encodedSize_lt_two_pow h⟩⟩⟩
  · exact congrArg Host.Outcome.next (s.finish_outLen_zero ..)
  · rw [hzero, encodedSize_zero]
    rfl

theorem exec_decsize_of_mod_ne {s : State} (h : s.lLen % 4 ≠ 0) : exec .decsize s = .next (s.finish .length 0 0) :=
  if_pos (lenErr_eq_true_iff.mpr h)

theorem exec_decsize_of_mod_eq {s : State} (h : s.lLen % 4 = 0) :
    exec .decsize s = .next (s.finish .ok 0 (BitVec.ofNat 32 (s.lLen / 4 * 3))) := by
  rw [← maxDecodedSize_of_mod_eq h]
  exact if_neg (by simpa using h)

/-- Settles O19: exec of DECSIZE branches on `len_err`, and each branch finishes with an OUT_LEN of 0. -/
theorem decsizeResult : Obligations.DecsizeResult := by
  unfold Obligations.DecsizeResult
  obtain ⟨-, -, -, hdecode, -⟩ := notationWordsDecode
  refine ⟨hdecode, fun s => ⟨fun h => ?_, fun h => ?_⟩⟩
  · rw [exec_decsize_of_mod_ne h, State.finish_outLen_zero]
  · rw [exec_decsize_of_mod_eq h, State.finish_outLen_zero]

end Sys2Proof.Machine
end

section
/-! PROOFS. The group transform (R151), and the quartet transform undoing it: one group at a time (R181) and over a
whole buffer (R163). -/

namespace Sys2Proof.Machine

open Sys2Proof.Safety

/-! ### Packed bytes and fields -/

/-- The three bytes of a 24-bit value are the ones it was packed from, in order (R66). -/
theorem extractLsb'_packed24 (b0 b1 b2 : Byte) :
    (b0 ++ b1 ++ b2).extractLsb' 16 8 = b0 ∧ (b0 ++ b1 ++ b2).extractLsb' 8 8 = b1 ∧
    (b0 ++ b1 ++ b2).extractLsb' 0 8 = b2 :=
  ⟨(BitVec.extractLsb'_append_eq_of_le (by decide)).trans BitVec.extractLsb'_append_eq_left,
    (BitVec.extractLsb'_append_eq_of_le (by decide)).trans BitVec.extractLsb'_append_eq_right,
    BitVec.extractLsb'_append_eq_right⟩

/-- The four bytes of a word are the ones it was packed from, in order (R66). -/
theorem extractLsb'_packed32 (c0 c1 c2 c3 : Byte) :
    (c0 ++ c1 ++ c2 ++ c3).extractLsb' 24 8 = c0 ∧ (c0 ++ c1 ++ c2 ++ c3).extractLsb' 16 8 = c1 ∧
    (c0 ++ c1 ++ c2 ++ c3).extractLsb' 8 8 = c2 ∧ (c0 ++ c1 ++ c2 ++ c3).extractLsb' 0 8 = c3 := by
  obtain ⟨h0, h1, h2⟩ := extractLsb'_packed24 c0 c1 c2
  exact ⟨(BitVec.extractLsb'_append_eq_of_le (by decide)).trans h0,
    (BitVec.extractLsb'_append_eq_of_le (by decide)).trans h1,
    (BitVec.extractLsb'_append_eq_of_le (by decide)).trans h2, BitVec.extractLsb'_append_eq_right⟩

theorem bytes24_append (b0 b1 b2 : Byte) : bytes24 (b0 ++ b1 ++ b2) = [b0, b1, b2] := by
  obtain ⟨h0, h1, h2⟩ := extractLsb'_packed24 b0 b1 b2
  rw [bytes24, h0, h1, h2]

theorem bytes32_append (c0 c1 c2 c3 : Byte) : bytes32 (c0 ++ c1 ++ c2 ++ c3) = [c0, c1, c2, c3] := by
  obtain ⟨h0, h1, h2, h3⟩ := extractLsb'_packed32 c0 c1 c2 c3
  rw [bytes32, h0, h1, h2, h3]

/-- A 24-bit value is its four 6-bit fields (R151). -/
theorem fields_append (v : BitVec 24) :
    v.extractLsb' 18 6 ++ v.extractLsb' 12 6 ++ v.extractLsb' 6 6 ++ v.extractLsb' 0 6 = v := by
  simp only [BitVec.extractLsb'_append_extractLsb'_eq_extractLsb', BitVec.extractLsb'_eq_self]

/-- A 24-bit value is its three bytes (R66). -/
theorem bytes_append (v : BitVec 24) : v.extractLsb' 16 8 ++ v.extractLsb' 8 8 ++ v.extractLsb' 0 8 = v := by
  simp only [BitVec.extractLsb'_append_extractLsb'_eq_extractLsb', BitVec.extractLsb'_eq_self]

theorem low_field_of_zero_byte {n : Nat} (v : BitVec n) : (v ++ 0#8).extractLsb' 0 6 = 0#6 :=
  (BitVec.extractLsb'_append_eq_of_add_le (by decide)).trans BitVec.extractLsb'_zero

theorem third_field_of_zero_bytes : ∀ b0 : Byte, (b0 ++ 0#8 ++ 0#8).extractLsb' 6 6 = 0#6 := by decide

/-! ### The group transform (R151) -/

section Group

variable (b0 b1 b2 : Byte)

theorem encGroup_three : encGroup b0 b1 b2 3 =
    encField ((b0 ++ b1 ++ b2).extractLsb' 18 6) ++ encField ((b0 ++ b1 ++ b2).extractLsb' 12 6) ++
      encField ((b0 ++ b1 ++ b2).extractLsb' 6 6) ++ encField ((b0 ++ b1 ++ b2).extractLsb' 0 6) := rfl

theorem encGroup_two : encGroup b0 b1 b2 2 =
    encField ((b0 ++ b1 ++ 0#8).extractLsb' 18 6) ++ encField ((b0 ++ b1 ++ 0#8).extractLsb' 12 6) ++
      encField ((b0 ++ b1 ++ 0#8).extractLsb' 6 6) ++ padChar := rfl

theorem encGroup_one : encGroup b0 b1 b2 1 =
    encField ((b0 ++ 0#8 ++ 0#8).extractLsb' 18 6) ++ encField ((b0 ++ 0#8 ++ 0#8).extractLsb' 12 6) ++
      padChar ++ padChar := rfl

end Group

/-- Settles O20: the three cases of the padding are `encGroup` at `k` = 3, 2 and 1. -/
theorem groupTransform : Obligations.GroupTransform := by
  unfold Obligations.GroupTransform
  intro b0 b1 b2
  exact ⟨encGroup_three b0 b1 b2, encGroup_two b0 b1 b2, encGroup_one b0 b1 b2, fun b1' b2' => ⟨rfl, rfl⟩⟩

/-! ### The quartet transform of symbols and padding (R181) -/

section Quartet

variable (x y z w : BitVec 6)

/-- Four symbols decode to their four fields, in the last quartet or before it. -/
theorem decQuartet_symbols (final : Bool) :
    decQuartet (encField x) (encField y) (encField z) (encField w) final = ⟨.ok, 3, x ++ y ++ z ++ w⟩ := by
  have hpad : quartetPad (encField z) (encField w) final = 0 := by simp [quartetPad]
  have hbytes := bytes_append (x ++ y ++ z ++ w)
  simp [decQuartet, hpad, quartetBytes, hbytes]

/-- Three symbols and one `=` in the last quartet decode to the two high bytes of their fields. -/
theorem decQuartet_one_pad :
    decQuartet (encField x) (encField y) (encField z) padChar true =
      ⟨.ok, 2, (x ++ y ++ z ++ 0#6).extractLsb' 16 8 ++ (x ++ y ++ z ++ 0#6).extractLsb' 8 8 ++ 0#8⟩ := by
  have hpad : quartetPad (encField z) padChar true = 1 := by simp [quartetPad]
  simp [decQuartet, hpad, quartetBytes]

/-- Two symbols and two `=` in the last quartet decode to the high byte of their fields. -/
theorem decQuartet_two_pads :
    decQuartet (encField x) (encField y) padChar padChar true =
      ⟨.ok, 1, (x ++ y ++ 0#6 ++ 0#6).extractLsb' 16 8 ++ 0#8 ++ 0#8⟩ := by
  have hpad : quartetPad padChar padChar true = 2 := by simp [quartetPad]
  simp [decQuartet, hpad, quartetBytes]

/-- A `=` before the last quartet is no padding but an illegal character. -/
theorem decQuartet_pad_in_body (c0 c1 c2 : Byte) : decQuartet c0 c1 c2 padChar false = ⟨.invBody, 0, 0⟩ := by
  simp [decQuartet, quartetPad]

end Quartet

/-! ### One group there and back (R151, R181) -/

/-- `dec_quartet` of the four characters packed in a word (R66, R181). -/
def decWord (v : Word) (final : Bool) : QuartetOut :=
  decQuartet (v.extractLsb' 24 8) (v.extractLsb' 16 8) (v.extractLsb' 8 8) (v.extractLsb' 0 8) final

theorem decWord_append (c0 c1 c2 c3 : Byte) (final : Bool) :
    decWord (c0 ++ c1 ++ c2 ++ c3) final = decQuartet c0 c1 c2 c3 final := by
  obtain ⟨h0, h1, h2, h3⟩ := extractLsb'_packed32 c0 c1 c2 c3
  rw [decWord, h0, h1, h2, h3]

section Group

variable (b0 b1 b2 : Byte)

theorem decWord_encGroup_three (final : Bool) : decWord (encGroup b0 b1 b2 3) final = ⟨.ok, 3, b0 ++ b1 ++ b2⟩ := by
  rw [encGroup_three, decWord_append, decQuartet_symbols, fields_append]

theorem decWord_encGroup_two : decWord (encGroup b0 b1 b2 2) true = ⟨.ok, 2, b0 ++ b1 ++ 0#8⟩ := by
  have hfields := fields_append (b0 ++ b1 ++ 0#8)
  obtain ⟨h0, h1, -⟩ := extractLsb'_packed24 b0 b1 0#8
  rw [low_field_of_zero_byte] at hfields
  rw [encGroup_two, decWord_append, decQuartet_one_pad, hfields, h0, h1]

theorem decWord_encGroup_one : decWord (encGroup b0 b1 b2 1) true = ⟨.ok, 1, b0 ++ 0#8 ++ 0#8⟩ := by
  have hfields := fields_append (b0 ++ 0#8 ++ 0#8)
  obtain ⟨h0, -⟩ := extractLsb'_packed24 b0 0#8 0#8
  rw [third_field_of_zero_bytes, low_field_of_zero_byte] at hfields
  rw [encGroup_one, decWord_append, decQuartet_two_pads, hfields, h0]

theorem decWord_encGroup_two_in_body : (decWord (encGroup b0 b1 b2 2) false).status = .invBody := by
  rw [encGroup_two, decWord_append, decQuartet_pad_in_body]

theorem decWord_encGroup_one_in_body : (decWord (encGroup b0 b1 b2 1) false).status = .invBody := by
  rw [encGroup_one, decWord_append, decQuartet_pad_in_body]

end Group

/-- Settles O24: the symbols give back the fields they stand for, and each `=` in place the zero field it stands for. -/
theorem quartetUndoesGroup : Obligations.QuartetUndoesGroup := by
  unfold Obligations.QuartetUndoesGroup
  intro b0 b1 b2
  refine ⟨decWord_encGroup_three b0 b1 b2, decWord_encGroup_two b0 b1 b2, ?_,
    decWord_encGroup_two_in_body b0 b1 b2, decWord_encGroup_one_in_body b0 b1 b2⟩
  refine (decWord_encGroup_one b0 b1 b2).trans ?_
  rw [BitVec.append_assoc]
  rfl

/-! ### Whole buffers there and back (R163) -/

/-- A quartet and the characters after it (R191, R192). -/
theorem decodeChars_bytes32_append (v : Word) (rest : List Byte) :
    decodeChars (bytes32 v ++ rest) =
      if (decWord v rest.isEmpty).status = .ok then
        ((decodeChars rest).1,
          (bytes24 (decWord v rest.isEmpty).out).take (decWord v rest.isEmpty).nbytes ++ (decodeChars rest).2)
      else ((decWord v rest.isEmpty).status, []) := rfl

/-- Every list of bytes is decoded from its encoding, group by group. -/
theorem decodeChars_encodeBytes (bs : List Byte) : decodeChars (encodeBytes bs) = (.ok, bs) := by
  induction bs using encodeBytes.induct with
  | case1 => rfl
  | case2 a =>
    rw [encodeBytes, ← List.append_nil (bytes32 _), decodeChars_bytes32_append, List.isEmpty_nil,
      decWord_encGroup_one, bytes24_append]
    rfl
  | case3 a b =>
    rw [encodeBytes, ← List.append_nil (bytes32 _), decodeChars_bytes32_append, List.isEmpty_nil,
      decWord_encGroup_two, bytes24_append]
    rfl
  | case4 a b c rest ih =>
    rw [encodeBytes, decodeChars_bytes32_append, decWord_encGroup_three, bytes24_append, ih]
    rfl

/-- Settles O57: the quartets of an encoding give back its groups. -/
theorem decodeOfEncodeIsIdentity : Obligations.DecodeOfEncodeIsIdentity := by
  unfold Obligations.DecodeOfEncodeIsIdentity
  exact decodeChars_encodeBytes

/-- A full group has symbols only. -/
theorem legal_of_mem_full_group {a b c x : Byte} (h : x ∈ bytes32 (encGroup a b c 3)) : legal x = true := by
  rw [encGroup_three, bytes32_append] at h
  simp only [List.mem_cons, List.not_mem_nil, or_false] at h
  rcases h with rfl | rfl | rfl | rfl <;> exact legal_encField _

/-- A short group has its symbols first: what is no symbol is one of its last two characters. -/
theorem legal_or_pad_of_short_group {a b x : Byte} {k i : Nat} (hk : k = 1 ∨ k = 2)
    (h : (bytes32 (encGroup a b 0 k))[i]? = some x) : legal x = true ∨ (x = padChar ∧ 4 ≤ i + 2) := by
  obtain ⟨f0, f1, x2, h2, hchars⟩ : ∃ (f0 f1 : BitVec 6) (x2 : Byte), (legal x2 = true ∨ x2 = padChar) ∧
      bytes32 (encGroup a b 0 k) = [encField f0, encField f1, x2, padChar] := by
    rcases hk with rfl | rfl
    · exact ⟨_, _, _, .inr rfl, bytes32_append ..⟩
    · exact ⟨_, _, _, .inl (legal_encField _), bytes32_append ..⟩
  rw [hchars] at h
  match i with
  | 0 => exact .inl (by cases h; exact legal_encField f0)
  | 1 => exact .inl (by cases h; exact legal_encField f1)
  | 2 => cases h; exact h2.imp id fun hx => ⟨hx, by decide⟩
  | 3 => cases h; exact .inr ⟨rfl, by decide⟩
  | i + 4 => cases h

/-- Settles O58: the full groups have symbols only, and the short group, if there is one, comes last. -/
theorem encodedCharactersLegal : Obligations.EncodedCharactersLegal := by
  unfold Obligations.EncodedCharactersLegal
  intro bs
  induction bs using encodeBytes.induct with
  | case1 =>
    intro i x h
    cases h
  | case2 a => exact fun i x h => legal_or_pad_of_short_group (.inl rfl) h
  | case3 a b => exact fun i x h => legal_or_pad_of_short_group (.inr rfl) h
  | case4 a b c rest ih =>
    intro i x h
    rw [encodeBytes, List.getElem?_append, bytes32_length] at h
    split_ifs at h with hi
    · exact .inl (legal_of_mem_full_group (List.mem_of_getElem? h))
    · refine (ih (i - 4) x h).imp id fun ⟨hx, hlen⟩ => ⟨hx, ?_⟩
      rw [encodeBytes, List.length_append, bytes32_length]
      omega

/-! ### ENCGRP (R152) -/

theorem exec_encgrp_of_ne {k : BitVec 2} {s : State} (h : k ≠ 0) :
    exec (.encgrp k) s = .next (s.finish .ok 4 (encGroup s.dataByte2 s.dataByte1 s.dataByte0 k.toNat)) := if_neg h

theorem exec_encgrp_zero (s : State) : exec (.encgrp 0) s = .next (s.finish .badOp 0 0) := rfl

/-- Settles O21: exec of ENCGRP branches on K = 0, and the count of 4 fits every LEN_W. -/
theorem encgrpResult : Obligations.EncgrpResult := by
  unfold Obligations.EncgrpResult
  obtain ⟨-, -, -, -, h1, h2, h3, -⟩ := notationWordsDecode
  refine ⟨h1, h2, h3, fun k s => ⟨fun hk => ?_, fun hk => ?_⟩⟩
  · rw [exec_encgrp_of_ne hk, State.finish, State.fit_small (by decide)]
    rfl
  · rw [hk, exec_encgrp_zero, State.finish_outLen_zero]

end Sys2Proof.Machine
end

section
/-! PROOFS. ENCODE: its START step (R160), one group step (R161), and the whole operation (R162). -/

namespace Sys2Proof.Machine

open Sys2Proof.Safety

/-! ### The START step (R160) -/

theorem exec_encode_param {srcP dstP lenP : Bool} (s : State) (h : srcP = false ∨ dstP = false ∨ lenP = false) :
    exec (.encode srcP dstP lenP) s = .next (s.finish .param 0 0) := if_pos (by simpa [or_assoc] using h)

section Present

variable {s : State}

theorem exec_encode_capacity (h : s.lCap < encodedSize s.lLen) :
    exec (.encode true true true) s = .next (s.finish .capacity 0 0) := if_pos h

theorem exec_encode_empty (h : s.lLen = 0) : exec (.encode true true true) s = .next (s.finish .ok 0 0) :=
  (if_neg (by simp [h])).trans (if_pos h)

theorem exec_encode_setup (hroom : encodedSize s.lLen ≤ s.lCap) (hpos : 0 < s.lLen) :
    exec (.encode true true true) s = .next (s.beginEncode ((s.lLen + 2) / 3)) :=
  (if_neg (Nat.not_lt.mpr hroom)).trans (if_neg hpos.ne')

end Present

/-- Settles O25: one case per branch of ENCODE's START step. -/
theorem encodeStart : Obligations.EncodeStart := by
  unfold Obligations.EncodeStart
  intro srcP dstP lenP s
  refine ⟨fun h => ?_, ?_⟩
  · rw [exec_encode_param s h, State.finish_outLen_zero]
  · rintro rfl rfl rfl
    refine ⟨fun h => ?_, fun h => ?_, fun hroom hpos hlt => ?_⟩
    · rw [exec_encode_capacity h, State.finish_outLen_zero]
    · rw [exec_encode_empty h, State.finish_outLen_zero]
    · rw [exec_encode_setup hroom hpos, State.beginEncode, State.fit_of_lt (by omega)]

end Sys2Proof.Machine
end

section
/-! PROOFS. Runs of a machine whose Host has nothing to do, and the laws of writing a list of bytes. -/

namespace Sys2Proof.Machine

open Sys2Proof.Safety

theorem runSteps_one {s t : State} (h : step s = .next t) : runSteps 1 s = .next t := by
  rw [runSteps, h]
  rfl

/-- `n` steps lead from `s` to `t`, and the CORE is busy before each of them. -/
def BusyFor (n : Nat) (s t : State) : Prop :=
  runSteps n s = .next t ∧ ∀ k < n, ∃ u, runSteps k s = .next u ∧ u.phase ≠ .idle

theorem BusyFor.refl (s : State) : BusyFor 0 s s := ⟨rfl, fun k hk => absurd hk k.not_lt_zero⟩

/-- One CORE step of a busy machine, and the run from there on. -/
theorem BusyFor.head {n : Nat} {s t u : State} (hbusy : s.phase ≠ .idle) (hprog : s.program = [])
    (hstep : coreStep s = .next t) (h : BusyFor n t u) : BusyFor (n + 1) s u := by
  obtain ⟨hrun, hbefore⟩ := h
  rw [← step_eq_coreStep hbusy hprog] at hstep
  refine ⟨by rw [runSteps, hstep]; exact hrun, fun k hk => ?_⟩
  cases k with
  | zero => exact ⟨s, rfl, hbusy⟩
  | succ k =>
    rw [runSteps, hstep]
    exact hbefore k (by omega)

theorem Memory.writeList_append (m : Memory) (i : Nat) (xs ys : List Byte) :
    m.writeList i (xs ++ ys) = (m.writeList i xs).writeList (i + xs.length) ys := by
  induction xs generalizing m i with
  | nil => rfl
  | cons x xs ih =>
    rw [List.cons_append, Memory.writeList, ih, List.length_cons, Nat.add_comm xs.length 1, ← Nat.add_assoc]
    rfl

theorem holds_writeList (m : Memory) (bs : List Byte) : Holds (m.writeList 0 bs) bs := fun i hi => by
  rw [← Memory.read_writeList_inside bs m 0 i hi, Nat.zero_add]

theorem getElem?_eq_some_getD {bs : List Byte} {i : Nat} (h : i < bs.length) : bs[i]? = some (bs.getD i 0) := by
  rw [List.getD_eq_getElem?_getD, List.getElem?_eq_getElem h, Option.getD_some]

/-- DST, WCNT and QIDX as the running steps leave them, on unbounded naturals (R161, R191, R192). -/
def State.advanceTo (s : State) (m : Memory) (w q : Nat) : State := { s with dst := m, wcnt := w, qidx := q }

/-- The command word `w` is accepted in `s`, its latched length is that of its source `bs`, and the Host has nothing to
do (R41). -/
structure CommandDue (s : State) (w : Word) (bs : List Byte) : Prop where
  phase : s.phase = .start
  word : s.lCmd = w
  program : s.program = []
  length : s.lLen = bs.length
  lLen_lt : s.lLen < s.lenW.cells
  source : Holds s.src bs

theorem CommandDue.busy {s : State} {w : Word} {bs : List Byte} (h : CommandDue s w bs) : s.phase ≠ .idle := by
  rw [h.phase]
  decide

/-- `finish` with a count that fits LEN_W bits (R231). -/
theorem State.finish_of_lt {s : State} {ol : Nat} (st : Status) (r : Word) (h : ol < s.lenW.cells) :
    s.finish st ol r = { s with status := st, outLen := ol, result := r, done := true, phase := .idle } := by
  rw [State.finish, State.fit_of_lt h]

end Sys2Proof.Machine
end

section
/-! PROOFS. The group step of ENCODE (R161), and the whole operation, group by group (R162). -/

namespace Sys2Proof.Machine

open Sys2Proof.Safety

/-! ### One group step (R161) -/

/-- What ENCODE reports after its last group (R161). -/
def State.reportEncode (s : State) : State :=
  { s with status := .ok, outLen := encodedSize s.lLen, result := 0, done := true, phase := .idle }

/-- The registers of a running ENCODE have room for its counts, so that no store cuts them. -/
theorem endGroup_of_running {s : State} (hrun : EncodeRunning s) (hcap : s.lCap < s.lenW.cells) :
    s.endGroup =
      let t := s.advanceTo s.dst (s.wcnt + 4) (s.qidx + 1)
      if s.qidx + 1 = s.nq then t.reportEncode else t := by
  obtain ⟨-, hroom, hgroups, hq, hcount⟩ := hrun
  have hsize : encodedSize s.lLen = 4 * s.nq := by rw [hgroups, encodedSize]
  have fitQ : s.fit (s.qidx + 1) = s.qidx + 1 := State.fit_of_lt (by omega)
  have fitW : s.fit (s.wcnt + 4) = s.wcnt + 4 := State.fit_of_lt (by omega)
  have hstate : (s.countBytes 4).nextQuartet = s.advanceTo s.dst (s.wcnt + 4) (s.qidx + 1) := by
    rw [← fitQ, ← fitW]
    rfl
  obtain ⟨hne, h⟩ | ⟨hlast, h⟩ := s.endGroup_cases
  · rw [h, hstate]
    exact (if_neg (fitQ ▸ hne)).symm
  · rw [fitQ] at hlast
    have hout : s.fit (s.wcnt + 4) = encodedSize s.lLen := by rw [fitW, hcount, hsize, ← hlast, Nat.mul_succ]
    rw [h, hstate, hout]
    have hfinish := State.finish_of_lt (s := s.advanceTo s.dst (s.wcnt + 4) (s.qidx + 1)) .ok 0 (hroom.trans_lt hcap)
    exact hfinish.trans (if_pos hlast).symm

section GroupStep

variable {s : State} {b0 b1 b2 : Byte}
  (h0 : s.src.read (3 * s.qidx) = some b0)
  (h1 : if 2 ≤ s.lLen - 3 * s.qidx then s.src.read (3 * s.qidx + 1) = some b1 else b1 = 0)
  (h2 : if 3 ≤ s.lLen - 3 * s.qidx then s.src.read (3 * s.qidx + 2) = some b2 else b2 = 0)

include h0 h1 h2

/-- The due group is read byte by byte, and not past L_LEN (R161). -/
theorem loadGroup_due (hdue : 3 * s.qidx < s.lLen) (hlen : s.lLen < s.lenW.cells) :
    s.loadGroup s.qidx s.groupLen = .ok ⟨b0, b1, b2⟩ := by
  have load {i : Nat} {b : Byte} (hi : i < s.lLen) (h : s.src.read i = some b) : s.loadSrc i = .ok b :=
    State.loadSrc_ok.mpr ⟨hi.trans hlen, h⟩
  rw [State.loadGroup_ok, State.loadSrcIf_ok, State.loadSrcIf_ok]
  refine ⟨load hdue h0, ?_, ?_⟩
  · by_cases hk : 2 ≤ s.lLen - 3 * s.qidx
    · rw [if_pos hk] at h1
      rw [if_pos (by simp [State.groupLen, hk])]
      exact load (by omega) h1
    · rw [if_neg hk] at h1
      rwa [if_neg (by simp [State.groupLen, hk])]
  · by_cases hk : 3 ≤ s.lLen - 3 * s.qidx
    · rw [if_pos hk] at h2
      rw [if_pos (by simp [State.groupLen, hk])]
      exact load (by omega) h2
    · rw [if_neg hk] at h2
      rwa [if_neg (by simp [State.groupLen, hk])]

/-- The CORE step of a running ENCODE (R161): it needs none of the invariant beyond EncodeRunning and L_CAP's width. -/
theorem coreStep_encGrp (hp : s.phase = .encGrp) (hrun : EncodeRunning s) (hcap : s.lCap < s.lenW.cells) :
    coreStep s = .next (
      let t := s.advanceTo (s.dst.writeList (4 * s.qidx) (bytes32 (encGroup b0 b1 b2 s.groupLen))) (s.wcnt + 4)
        (s.qidx + 1)
      if s.qidx + 1 = s.nq then t.reportEncode else t) := by
  obtain ⟨-, hroom, hgroups, hq, -⟩ := id hrun
  rw [encodedSize] at hroom
  have hdue : 3 * s.qidx < s.lLen := by omega
  have hk : s.groupLen ≠ 0 := by unfold State.groupLen; omega
  have hcells : 4 * s.qidx + (bytes32 (encGroup b0 b1 b2 s.groupLen)).length ≤ s.lenW.cells := by
    rw [bytes32_length]
    omega
  have hend := endGroup_of_running (s := s.putDst (4 * s.qidx) (bytes32 (encGroup b0 b1 b2 s.groupLen))) hrun hcap
  rw [coreStep, hp]
  simp only [encGroupStep]
  rw [if_neg hk, loadGroup_due h0 h1 h2 hdue (by omega), outcomeOf_next, bind_ok]
  refine ⟨_, rfl, ?_⟩
  rw [State.storeDst_of_le hcells]
  exact congrArg Except.ok hend

end GroupStep

/-- Settles O27: the step of a running ENCODE, in a state whose registers all hold LEN_W-bit values. -/
theorem encodeGroupStep : Obligations.EncodeGroupStep := by
  unfold Obligations.EncodeGroupStep
  intro s b0 b1 b2 hi hp h0 h1 h2
  obtain ⟨⟨-, -, -, -, -, -, -, -, hcap, -⟩, -, hrun, -⟩ := hi
  exact coreStep_encGrp h0 h1 h2 hp (hrun hp) hcap

/-! ### The whole operation (R162) -/

/-- The encoding of a non-empty list is its first group, short or full, and the encoding of the bytes after it. -/
theorem encodeBytes_of_ne_nil {bs : List Byte} (h : bs ≠ []) :
    encodeBytes bs =
      bytes32 (encGroup (bs.getD 0 0) (bs.getD 1 0) (bs.getD 2 0) (min 3 bs.length)) ++ encodeBytes (bs.drop 3) := by
  match bs with
  | [] => exact absurd rfl h
  | [a] => rfl
  | [a, b] => rfl
  | a :: b :: c :: rest =>
    have hk : min 3 (a :: b :: c :: rest).length = 3 := Nat.min_eq_left (by simp)
    rw [hk]
    rfl

theorem length_encodeBytes (bs : List Byte) : (encodeBytes bs).length = encodedSize bs.length := by
  induction bs using encodeBytes.induct with
  | case1 => rfl
  | case2 a => simp [encodeBytes, encodedSize]
  | case3 a b => simp [encodeBytes, encodedSize]
  | case4 a b c rest ih =>
    rw [encodeBytes, List.length_append, ih, bytes32_length]
    simp only [encodedSize, List.length_cons]
    omega

/-- `s` is a running ENCODE, the Host with nothing to do, and `bs` are its bytes from the due group on. -/
structure EncodeDue (s : State) (bs : List Byte) : Prop where
  phase : s.phase = .encGrp
  program : s.program = []
  running : EncodeRunning s
  cap : s.lCap < s.lenW.cells
  length : s.lLen = 3 * s.qidx + bs.length
  source : ∀ i < bs.length, s.src.read (3 * s.qidx + i) = bs[i]?

/-- `s` after the ENCODE of the bytes `bs` from its due group on. -/
def State.encoded (s : State) (bs : List Byte) : State :=
  (s.advanceTo (s.dst.writeList (4 * s.qidx) (encodeBytes bs)) (4 * s.nq) s.nq).reportEncode

/-- `s` after the step of the due group of an ENCODE, whose bytes are the first of `bs`, but for its report. -/
def State.groupEncoded (s : State) (bs : List Byte) : State :=
  s.advanceTo (s.dst.writeList (4 * s.qidx)
    (bytes32 (encGroup (bs.getD 0 0) (bs.getD 1 0) (bs.getD 2 0) (min 3 bs.length)))) (4 * (s.qidx + 1)) (s.qidx + 1)

namespace EncodeDue

variable {s : State} {bs : List Byte}

theorem ne_nil (h : EncodeDue s bs) : bs ≠ [] := by
  rintro rfl
  obtain ⟨-, -, hgroups, hq, -⟩ := h.running
  have hlen := h.length
  rw [List.length_nil] at hlen
  omega

theorem busy (h : EncodeDue s bs) : s.phase ≠ .idle := by
  rw [h.phase]
  decide

/-- The source byte `i` past the start of the due group. -/
theorem read {i : Nat} (h : EncodeDue s bs) (hi : i < bs.length) : s.src.read (3 * s.qidx + i) = some (bs.getD i 0) := by
  rw [h.source i hi, getElem?_eq_some_getD hi]

/-- The step of the due group. -/
theorem coreStep (h : EncodeDue s bs) :
    coreStep s = .next (if s.qidx + 1 = s.nq then (s.groupEncoded bs).reportEncode else s.groupEncoded bs) := by
  have hleft : s.lLen - 3 * s.qidx = bs.length := by have := h.length; omega
  have hk : s.groupLen = min 3 bs.length := congrArg (min 3) hleft
  obtain ⟨-, -, -, -, hcount⟩ := h.running
  have hcount' : 4 * (s.qidx + 1) = s.wcnt + 4 := by omega
  rw [State.groupEncoded, ← hk, hcount']
  refine coreStep_encGrp (h.read (List.length_pos_iff.mpr h.ne_nil)) ?_ ?_ h.phase h.running h.cap <;> rw [hleft]
  · split_ifs with hi
    · exact h.read hi
    · exact List.getD_eq_default _ _ (by omega)
  · split_ifs with hi
    · exact h.read hi
    · exact List.getD_eq_default _ _ (by omega)

/-- The step of the due group comes before the end of the bytes after it. -/
theorem encoded_groupEncoded (h : EncodeDue s bs) : (s.groupEncoded bs).encoded (bs.drop 3) = s.encoded bs := by
  rw [State.encoded, State.encoded, encodeBytes_of_ne_nil h.ne_nil, Memory.writeList_append]
  rfl

/-- Where the due group is the last, its step ends the ENCODE. -/
theorem coreStep_last (h : EncodeDue s bs) (hlast : s.qidx + 1 = s.nq) : Machine.coreStep s = .next (s.encoded bs) := by
  obtain ⟨-, -, hgroups, -, -⟩ := h.running
  have hlen := h.length
  have hdrop : bs.drop 3 = [] := List.drop_eq_nil_of_le (by omega)
  rw [h.coreStep, if_pos hlast, ← h.encoded_groupEncoded, hdrop, State.groupEncoded, hlast]
  rfl

/-- Where it is not, its step leaves the ENCODE of the bytes after it. -/
theorem next (h : EncodeDue s bs) (hnext : s.qidx + 1 < s.nq) : EncodeDue (s.groupEncoded bs) (bs.drop 3) where
  phase := h.phase
  program := h.program
  running := by
    obtain ⟨hw, hroom, hgroups, -, -⟩ := h.running
    exact ⟨hw, hroom, hgroups, hnext, rfl⟩
  cap := h.cap
  length := by
    obtain ⟨-, -, hgroups, -, -⟩ := h.running
    have hlen := h.length
    change s.lLen = 3 * (s.qidx + 1) + (bs.drop 3).length
    rw [List.length_drop]
    omega
  source := fun i hi => by
    rw [List.length_drop] at hi
    change s.src.read (3 * (s.qidx + 1) + i) = (bs.drop 3)[i]?
    rw [List.getElem?_drop, ← h.source (3 + i) (by omega), Nat.mul_succ, Nat.add_assoc]

/-- Group by group, an ENCODE with `n` groups left is busy for `n` steps. -/
theorem busyFor (n : Nat) (h : EncodeDue s bs) (hn : s.nq = s.qidx + n) : BusyFor n s (s.encoded bs) := by
  induction n generalizing s bs with
  | zero =>
    obtain ⟨-, -, -, hq, -⟩ := h.running
    omega
  | succ n ih =>
    by_cases hlast : s.qidx + 1 = s.nq
    · obtain rfl : n = 0 := by omega
      exact .head h.busy h.program (h.coreStep_last hlast) (.refl _)
    · have hstep := h.coreStep.trans (congrArg _ (if_neg hlast))
      have hleft : s.nq = s.qidx + 1 + n := by omega
      rw [← h.encoded_groupEncoded]
      exact .head h.busy h.program hstep (ih (h.next (by omega)) hleft)

end EncodeDue

/-- The START step of the word 0x78 is that of an ENCODE with every operand present. -/
theorem coreStep_encode {s : State} {bs : List Byte} (h : CommandDue s 0x78 bs) :
    coreStep s = exec (.encode true true true) s := by
  obtain ⟨-, -, -, -, -, -, -, -, -, hdecode, -⟩ := notationWordsDecode
  rw [coreStep, h.phase]
  simp only [startStep, h.word, hdecode]

section Whole

variable {s : State} {bs : List Byte} (h : CommandDue s 0x78 bs) (hcap : s.lCap < s.lenW.cells) (hpos : 0 < s.lLen)
  (hroom : encodedSize s.lLen ≤ s.lCap)

include h hcap hpos hroom

/-- The START step of an ENCODE with bytes and room for their characters leaves its first group due. -/
theorem EncodeDue.begin : EncodeDue (s.beginEncode ((s.lLen + 2) / 3)) bs where
  phase := rfl
  program := h.program
  running := by
    have hlt := h.lLen_lt
    have hfit : s.fit ((s.lLen + 2) / 3) = (s.lLen + 2) / 3 := State.fit_of_lt (by omega)
    refine ⟨h.word, hroom, hfit, ?_, rfl⟩
    rw [State.beginEncode_qidx, State.beginEncode_nq, hfit]
    omega
  cap := hcap
  length := by simpa using h.length
  source := by simpa using h.source

/-- The whole ENCODE: the START step, and the steps of its groups (R162). -/
theorem busyFor_encode : BusyFor (1 + (s.lLen + 2) / 3) s ((s.beginEncode ((s.lLen + 2) / 3)).encoded bs) := by
  have hdue := EncodeDue.begin h hcap hpos hroom
  have hstart := (coreStep_encode h).trans (exec_encode_setup hroom hpos)
  obtain ⟨-, -, hgroups, -, -⟩ := hdue.running
  rw [Nat.add_comm]
  exact .head h.busy h.program hstart (hdue.busyFor _ (hgroups.trans (Nat.zero_add _).symm))

end Whole

/-- Settles O54: the groups write the encoding in order from DST[0] on, and the last one reports its length. -/
theorem encodeTotals : Obligations.EncodeTotals := by
  unfold Obligations.EncodeTotals
  intro s bs hp hw hprog hlen hlt hcap hsrc
  have hdue : CommandDue s 0x78 bs := ⟨hp, hw, hprog, hlen, hlt, hsrc⟩
  refine ⟨fun hpos hroom => ?_, fun h => ?_⟩
  · obtain ⟨hrun, hbusy⟩ := busyFor_encode hdue hcap hpos hroom
    have hsize : (encodeBytes bs).length = encodedSize s.lLen := by rw [length_encodeBytes, hlen]
    refine ⟨⟨_, hrun, rfl, rfl, rfl, rfl, rfl, rfl, hsize, holds_writeList s.dst _, fun a ha => ?_⟩, hbusy⟩
    exact Memory.read_writeList_outside (encodeBytes bs) s.dst 0 a (.inr (by omega))
  · have hstep : step s = exec (.encode true true true) s :=
      (step_eq_coreStep hdue.busy hprog).trans (coreStep_encode hdue)
    by_cases hshort : s.lCap < encodedSize s.lLen
    · rw [exec_encode_capacity hshort] at hstep
      exact ⟨_, runSteps_one hstep, rfl, rfl, s.fit_zero, (if_pos hshort).symm, rfl⟩
    · rw [exec_encode_empty (h.resolve_right hshort)] at hstep
      exact ⟨_, runSteps_one hstep, rfl, rfl, s.fit_zero, (if_neg hshort).symm, rfl⟩

end Sys2Proof.Machine
end

section
/-! PROOFS. DECODE as a run (R190-R192): the quartets of a source one after another, against `decodeChars` of its
characters; and the round trip on the machine (R163). -/

namespace Sys2Proof.Machine

open Sys2Proof.Safety

/-! ### The cases of the quartet transform (R181) -/

@[simp] theorem quartetPad_body (c2 c3 : Byte) : quartetPad c2 c3 false = 0 := rfl

theorem quartetPad_le (c2 c3 : Byte) (final : Bool) : quartetPad c2 c3 final ≤ 2 := by
  unfold quartetPad
  split_ifs <;> decide

section Quartet

variable {c0 c1 c2 c3 : Byte} {final : Bool}

/-- A quartet is accepted with the padding it shows, or rejected as a body or as a padded quartet. -/
theorem decQuartet_cases (c0 c1 c2 c3 : Byte) (final : Bool) :
    decQuartet c0 c1 c2 c3 final = quartetBytes c0 c1 c2 c3 (quartetPad c2 c3 final) ∨
    decQuartet c0 c1 c2 c3 final = ⟨if quartetPad c2 c3 final = 0 then .invBody else .invFinal, 0, 0⟩ := by
  unfold decQuartet
  by_cases hpad : quartetPad c2 c3 final = 0
  · simp only [hpad, if_true]
    split_ifs
    · exact .inl rfl
    · exact .inr rfl
  · simp only [hpad, if_false]
    split_ifs
    · exact .inr rfl
    · exact .inr rfl
    · exact .inl rfl

theorem nbytes_of_ok (h : (decQuartet c0 c1 c2 c3 final).status = .ok) :
    (decQuartet c0 c1 c2 c3 final).nbytes = 3 - quartetPad c2 c3 final := by
  rcases decQuartet_cases c0 c1 c2 c3 final with hc | hc
  · rw [hc]
    rfl
  · rw [hc] at h
    split_ifs at h

theorem status_of_not_ok (h : (decQuartet c0 c1 c2 c3 final).status ≠ .ok) :
    (decQuartet c0 c1 c2 c3 final).status = if quartetPad c2 c3 final = 0 then .invBody else .invFinal := by
  rcases decQuartet_cases c0 c1 c2 c3 final with hc | hc
  · rw [hc] at h
    exact absurd rfl h
  · rw [hc]

/-- A quartet that shows no padding decodes alike in the last place and before it. -/
theorem decQuartet_of_no_pad (h : quartetPad c2 c3 final = 0) :
    decQuartet c0 c1 c2 c3 final = decQuartet c0 c1 c2 c3 false := by
  simp [decQuartet, h]

end Quartet

/-- The padding of a source is that of its last quartet (R181, R190). -/
theorem sourcePad_iff {m : Memory} {n p : Nat} {x y : Byte} (hx : m.read (n - 2) = some x)
    (hy : m.read (n - 1) = some y) : SourcePad m n p ↔ p = quartetPad x y true := by
  by_cases h1 : y = padChar <;> by_cases h2 : x = padChar <;> simp [SourcePad, quartetPad, hx, hy, h1, h2]

/-! ### What `decodeChars` does with a quartet (R191, R192) -/

/-- The bytes of an accepted quartet. -/
def quartetOutput (r : QuartetOut) : List Byte := (bytes24 r.out).take r.nbytes

@[simp] theorem decodeChars_nil : decodeChars [] = (.ok, []) := by simp [decodeChars]

section Chars

variable {c0 c1 c2 c3 : Byte} {rest : List Byte}

theorem decodeChars_of_ok (h : (decQuartet c0 c1 c2 c3 rest.isEmpty).status = .ok) :
    decodeChars (c0 :: c1 :: c2 :: c3 :: rest) =
      ((decodeChars rest).1, quartetOutput (decQuartet c0 c1 c2 c3 rest.isEmpty) ++ (decodeChars rest).2) := if_pos h

theorem decodeChars_of_not_ok (h : (decQuartet c0 c1 c2 c3 rest.isEmpty).status ≠ .ok) :
    decodeChars (c0 :: c1 :: c2 :: c3 :: rest) = ((decQuartet c0 c1 c2 c3 rest.isEmpty).status, []) := if_neg h

theorem quartetOutput_of_three {r : QuartetOut} (h : r.nbytes = 3) : quartetOutput r = bytes24 r.out := by
  rw [quartetOutput, h]
  rfl

/-- A final step writes the bytes its padded quartet holds (R192). -/
theorem finalBytes_eq {r : QuartetOut} (h : r.nbytes = 1 ∨ r.nbytes = 2) : finalBytes r = quartetOutput r := by
  rcases h with h | h <;> rw [finalBytes, quartetOutput, h] <;> rfl

theorem length_quartetOutput {final : Bool} (h : (decQuartet c0 c1 c2 c3 final).status = .ok) :
    (quartetOutput (decQuartet c0 c1 c2 c3 final)).length = 3 - quartetPad c2 c3 final := by
  rw [quartetOutput, List.length_take, bytes24_length, nbytes_of_ok h]
  omega

end Chars

/-- The character `k` places before the end stands among those past the first quartet, if there are so many. -/
theorem getD_past_quartet {c0 c1 c2 c3 : Byte} {rest : List Byte} {k : Nat} (h : k ≤ rest.length) :
    (c0 :: c1 :: c2 :: c3 :: rest).getD ((c0 :: c1 :: c2 :: c3 :: rest).length - k) 0 =
      rest.getD (rest.length - k) 0 := by
  have hi : (c0 :: c1 :: c2 :: c3 :: rest).length - k = rest.length - k + 4 := by
    simp only [List.length_cons]
    omega
  rw [hi]
  rfl

/-- A source of whole quartets that decodes OK gives three bytes a quartet, less its padding (R195). -/
theorem length_decodeChars_of_ok {cs : List Byte} (hmul : cs.length % 4 = 0) (hpos : 0 < cs.length)
    (hok : (decodeChars cs).1 = .ok) :
    (decodeChars cs).2.length + quartetPad (cs.getD (cs.length - 2) 0) (cs.getD (cs.length - 1) 0) true =
      cs.length / 4 * 3 := by
  induction cs using decodeChars.induct with
  | case1 c0 c1 c2 c3 rest r hr ih =>
    rw [decodeChars_of_ok hr] at hok ⊢
    have hout := length_quartetOutput hr
    simp only [List.length_cons] at hmul
    rw [List.length_append, hout]
    rcases Nat.eq_zero_or_pos rest.length with hrest | hrest
    · obtain rfl := List.length_eq_zero_iff.mp hrest
      have hsum : 3 - quartetPad c2 c3 true + quartetPad c2 c3 true = 3 :=
        Nat.sub_add_cancel ((quartetPad_le c2 c3 true).trans (by decide))
      simpa using hsum
    · have hbody : rest.isEmpty = false := List.isEmpty_eq_false_iff.mpr (List.length_pos_iff.mp hrest)
      have hih := ih (by omega) hrest hok
      rw [getD_past_quartet (by omega), getD_past_quartet (by omega), hbody, quartetPad_body]
      simp only [List.length_cons]
      omega
  | case2 c0 c1 c2 c3 rest r hr =>
    rw [decodeChars_of_not_ok hr] at hok
    exact absurd hok hr
  | case3 cs h =>
    match cs with
    | [] | [_] | [_, _] | [_, _, _] => simp at hmul hpos
    | c0 :: c1 :: c2 :: c3 :: rest => exact absurd rfl (h c0 c1 c2 c3 rest)

/-! ### One quartet step (R191, R192) -/

/-- What DECODE reports after its last quartet (R191, R192). -/
def State.reportDecode (s : State) (st : Status) (n : Nat) : State :=
  { s with status := st, outLen := n, result := 0, done := true, phase := .idle }

/-- A step of one quartet whose cells exist: it stores the bytes, or ends in INV_BODY (R191). -/
theorem decBodyStep_eq {s : State} {c0 c1 c2 c3 : Byte} (hload : s.loadQuartet s.qidx = .ok ⟨c0, c1, c2, c3⟩)
    (hroom : 3 * s.qidx + 3 ≤ s.lenW.cells) :
    decBodyStep s = .next (
      if (decQuartet c0 c1 c2 c3 false).status = .ok then
        (s.putDst (3 * s.qidx) (bytes24 (decQuartet c0 c1 c2 c3 false).out)).endBody
      else s.finish .invBody s.wcnt 0) := by
  unfold decBodyStep
  rw [outcomeOf_next, bind_ok]
  refine ⟨_, hload, ?_⟩
  dsimp only
  split_ifs
  · rw [State.storeDst_of_le hroom]
    rfl
  · rfl

/-- The last, padded quartet: its step stores the bytes, or ends in INV_FINAL (R192). -/
theorem decFinalStep_eq {s : State} {c0 c1 c2 c3 : Byte} (hload : s.loadQuartet s.qidx = .ok ⟨c0, c1, c2, c3⟩)
    (hroom : 3 * s.qidx + 3 ≤ s.lenW.cells) :
    decFinalStep s = .next (
      if (decQuartet c0 c1 c2 c3 true).status = .ok then
        (s.putDst (3 * s.qidx) (finalBytes (decQuartet c0 c1 c2 c3 true))).endFinal
          (decQuartet c0 c1 c2 c3 true).nbytes
      else s.finish .invFinal s.wcnt 0) := by
  unfold decFinalStep
  rw [outcomeOf_next, bind_ok]
  refine ⟨_, hload, ?_⟩
  dsimp only
  split_ifs
  · have hbytes := finalBytes_length_le (decQuartet c0 c1 c2 c3 true)
    rw [State.storeDst_of_le (by omega)]
    rfl
  · rfl

/-- The registers of a running DECODE have room for its counts, so that no store cuts them (R191). -/
theorem endBody_of_running {s : State} (hrun : DecodeRunning s) (hq : s.qidx < s.nb) (hlen : s.lLen < s.lenW.cells) :
    s.endBody =
      let t := s.advanceTo s.dst (s.wcnt + 3) (s.qidx + 1)
      if s.qidx + 1 = s.nb then if s.padc = 0 then t.reportDecode .ok (s.wcnt + 3) else t.enterFinal else t := by
  obtain ⟨-, -, -, -, -, hquartets, hbodies, hcount⟩ := hrun
  have fitQ : s.fit (s.qidx + 1) = s.qidx + 1 := State.fit_of_lt (by omega)
  have fitW : s.fit (s.wcnt + 3) = s.wcnt + 3 := State.fit_of_lt (by omega)
  have hstate : (s.countBytes 3).nextQuartet = s.advanceTo s.dst (s.wcnt + 3) (s.qidx + 1) := by
    rw [← fitQ, ← fitW]
    rfl
  obtain ⟨hne, h⟩ | ⟨hlast, hpadc, h⟩ | ⟨hlast, hpadc, h⟩ := s.endBody_cases
  · rw [h, hstate]
    exact (if_neg (fitQ ▸ hne)).symm
  · rw [fitQ] at hlast
    rw [h, hstate]
    exact ((if_pos hlast).trans (if_neg hpadc)).symm
  · rw [fitQ] at hlast
    have hfinish := State.finish_of_lt (s := s.advanceTo s.dst (s.wcnt + 3) (s.qidx + 1)) .ok 0
      (fitW ▸ s.fit_lt (s.wcnt + 3))
    rw [h, hstate, fitW]
    exact hfinish.trans ((if_pos hlast).trans (if_pos hpadc)).symm

/-! ### The quartets of a running DECODE -/

/-- `s` is a running DECODE, the Host with nothing to do, and `cs` are its characters from the due quartet on. -/
structure DecodeDue (s : State) (cs : List Byte) : Prop where
  program : s.program = []
  running : DecodeRunning s
  phase : (s.phase = .decBody ∧ s.qidx < s.nb) ∨ (s.phase = .decFinal ∧ 0 < s.padc.toNat ∧ s.qidx = s.nb)
  lLen_lt : s.lLen < s.lenW.cells
  length : s.lLen = 4 * s.qidx + cs.length
  source : ∀ i < cs.length, s.src.read (4 * s.qidx + i) = cs[i]?

/-- `t` is what the DECODE of the characters `cs` from the due quartet of `s` on ends in (R195). -/
structure DecodeEnds (s : State) (cs : List Byte) (t : State) : Prop where
  phase : t.phase = .idle
  done : t.done = true
  result : t.result = 0
  status : t.status = (decodeChars cs).1
  outLen : t.outLen = 3 * s.qidx + (decodeChars cs).2.length
  src : t.src = s.src
  dst : t.dst = s.dst.writeList (3 * s.qidx) (decodeChars cs).2

/-- An accepted quartet that is not the last, and the end of the characters after it. -/
theorem DecodeEnds.of_quartet {s t u : State} {c0 c1 c2 c3 : Byte} {rest : List Byte} (h : DecodeEnds t rest u)
    (hok : (decQuartet c0 c1 c2 c3 rest.isEmpty).status = .ok) (hrest : rest ≠ []) (hqidx : t.qidx = s.qidx + 1)
    (hsrc : t.src = s.src)
    (hdst : t.dst = s.dst.writeList (3 * s.qidx) (quartetOutput (decQuartet c0 c1 c2 c3 rest.isEmpty))) :
    DecodeEnds s (c0 :: c1 :: c2 :: c3 :: rest) u := by
  have hchars := decodeChars_of_ok hok
  have hlen : (quartetOutput (decQuartet c0 c1 c2 c3 rest.isEmpty)).length = 3 := by
    rw [length_quartetOutput hok, List.isEmpty_eq_false_iff.mpr hrest, quartetPad_body]
  refine ⟨h.phase, h.done, h.result, ?_, ?_, h.src.trans hsrc, ?_⟩
  · rw [h.status, hchars]
  · rw [h.outLen, hchars, hqidx, List.length_append, hlen, Nat.mul_succ, Nat.add_assoc]
  · rw [h.dst, hchars, hdst, hqidx, Memory.writeList_append, hlen, Nat.mul_succ]

/-- `s` after a step that accepted its due quartet, whose bytes are `bs`, but for PHASE and the report (R191). -/
def State.quartetDecoded (s : State) (bs : List Byte) : State :=
  s.advanceTo (s.dst.writeList (3 * s.qidx) bs) (3 * (s.qidx + 1)) (s.qidx + 1)

namespace DecodeDue

variable {s : State} {cs : List Byte}

theorem busy (h : DecodeDue s cs) : s.phase ≠ .idle := by
  obtain ⟨hp, -⟩ | ⟨hp, -⟩ := h.phase <;> rw [hp] <;> decide

/-- The due quartet is one of the quartets that are left. -/
theorem quartets_left (h : DecodeDue s cs) : s.qidx < s.nq ∧ s.lLen = 4 * s.nq := by
  obtain ⟨-, hpos, hmul, -, -, hquartets, hbodies, -⟩ := h.running
  obtain ⟨-, hq⟩ | ⟨-, hpad, hq⟩ := h.phase
  · omega
  · rw [if_pos hpad] at hbodies
    omega

/-- The bytes of the due quartet have cells, and a LEN_W-bit register counts them (R191). -/
theorem room (h : DecodeDue s cs) : 3 * s.qidx + 3 < s.lenW.cells := by
  obtain ⟨hq, hlen⟩ := h.quartets_left
  have hlt := h.lLen_lt
  omega

theorem wcnt_eq (h : DecodeDue s cs) : s.wcnt = 3 * s.qidx := by
  obtain ⟨-, -, -, -, -, -, -, hcount⟩ := h.running
  exact hcount

/-- A quartet is left before the end of the source. -/
theorem exists_quartet (h : DecodeDue s cs) : ∃ c0 c1 c2 c3 rest, cs = c0 :: c1 :: c2 :: c3 :: rest := by
  obtain ⟨hq, hlen⟩ := h.quartets_left
  have hleft := h.length
  match cs with
  | [] | [_] | [_, _] | [_, _, _] => simp only [List.length_cons, List.length_nil] at hleft; omega
  | c0 :: c1 :: c2 :: c3 :: rest => exact ⟨c0, c1, c2, c3, rest, rfl⟩

section Quartet

variable {c0 c1 c2 c3 : Byte} {rest : List Byte}

theorem loadQuartet (h : DecodeDue s (c0 :: c1 :: c2 :: c3 :: rest)) :
    s.loadQuartet s.qidx = .ok ⟨c0, c1, c2, c3⟩ := by
  have hlen := h.length
  have hlt := h.lLen_lt
  simp only [List.length_cons] at hlen
  have load (i : Nat) (hi : i < 4) {c : Byte} (hc : (c0 :: c1 :: c2 :: c3 :: rest)[i]? = some c) :
      s.loadSrc (4 * s.qidx + i) = .ok c :=
    State.loadSrc_ok.mpr ⟨by omega, (h.source i (by simp only [List.length_cons]; omega)).trans hc⟩
  exact State.loadQuartet_ok.mpr ⟨load 0 (by decide) rfl, load 1 (by decide) rfl, load 2 (by decide) rfl,
    load 3 (by decide) rfl⟩

/-- PADC is the padding that the last quartet shows (R190). -/
theorem padc_eq (h : DecodeDue s [c0, c1, c2, c3]) : s.padc.toNat = quartetPad c2 c3 true := by
  obtain ⟨-, -, -, hpad, -⟩ := h.running
  have hlen : s.lLen = 4 * s.qidx + 4 := h.length
  refine (sourcePad_iff ?_ ?_).mp hpad
  · rw [hlen]
    exact h.source 2 (by decide : 2 < 4)
  · rw [hlen]
    exact h.source 3 (by decide : 3 < 4)

/-- In PHASE = DEC_BODY the due quartet shows no padding: it is not the last, or PADC is 0. -/
theorem quartetPad_of_body (h : DecodeDue s (c0 :: c1 :: c2 :: c3 :: rest)) (hq : s.qidx < s.nb) :
    quartetPad c2 c3 rest.isEmpty = 0 := by
  cases rest with
  | cons c rest => rfl
  | nil =>
    obtain ⟨-, -, -, -, -, -, hbodies, -⟩ := h.running
    obtain ⟨-, hlen⟩ := h.quartets_left
    have hleft : s.lLen = 4 * s.qidx + 4 := h.length
    rw [List.isEmpty_nil, ← h.padc_eq]
    split_ifs at hbodies <;> omega

/-- In PHASE = DEC_FINAL the due quartet is the last and shows padding. -/
theorem last_of_final (h : DecodeDue s (c0 :: c1 :: c2 :: c3 :: rest)) (hpad : 0 < s.padc.toNat) (hq : s.qidx = s.nb) :
    rest = [] ∧ 0 < quartetPad c2 c3 rest.isEmpty := by
  obtain ⟨-, -, -, -, -, -, hbodies, -⟩ := h.running
  obtain ⟨hlt, hlen⟩ := h.quartets_left
  have hleft := h.length
  rw [if_pos hpad] at hbodies
  simp only [List.length_cons] at hleft
  obtain rfl : rest = [] := List.length_eq_zero_iff.mp (by omega)
  exact ⟨rfl, h.padc_eq ▸ hpad⟩

/-- The step of a quartet that is rejected (R191, R192). -/
theorem coreStep_of_not_ok (h : DecodeDue s (c0 :: c1 :: c2 :: c3 :: rest))
    (hbad : (decQuartet c0 c1 c2 c3 rest.isEmpty).status ≠ .ok) :
    coreStep s = .next (s.reportDecode (decQuartet c0 c1 c2 c3 rest.isEmpty).status (3 * s.qidx)) := by
  have hroom := h.room
  have hfinish (st : Status) : s.finish st s.wcnt 0 = s.reportDecode st (3 * s.qidx) := by
    rw [h.wcnt_eq]
    exact State.finish_of_lt st 0 (by omega)
  rw [status_of_not_ok hbad, coreStep]
  obtain ⟨hp, hq⟩ | ⟨hp, hpad, hq⟩ := h.phase <;> rw [hp]
  · have hpad := h.quartetPad_of_body hq
    rw [decQuartet_of_no_pad hpad] at hbad
    rw [if_pos hpad, ← hfinish]
    exact (decBodyStep_eq h.loadQuartet hroom.le).trans (congrArg _ (if_neg hbad))
  · obtain ⟨rfl, hpad⟩ := h.last_of_final hpad hq
    rw [if_neg hpad.ne', ← hfinish]
    exact (decFinalStep_eq h.loadQuartet hroom.le).trans (congrArg _ (if_neg hbad))

/-- The step of a body quartet that is accepted (R191). -/
theorem coreStep_body (h : DecodeDue s (c0 :: c1 :: c2 :: c3 :: rest)) (hp : s.phase = .decBody) (hq : s.qidx < s.nb)
    (hok : (decQuartet c0 c1 c2 c3 rest.isEmpty).status = .ok) :
    coreStep s = .next (
      let t := s.quartetDecoded (quartetOutput (decQuartet c0 c1 c2 c3 rest.isEmpty))
      if s.qidx + 1 = s.nb then if s.padc = 0 then t.reportDecode .ok (3 * (s.qidx + 1)) else t.enterFinal else t) := by
  have hpad := h.quartetPad_of_body hq
  have hbytes : (decQuartet c0 c1 c2 c3 rest.isEmpty).nbytes = 3 := by rw [nbytes_of_ok hok, hpad]
  have hcount : 3 * (s.qidx + 1) = s.wcnt + 3 := by rw [h.wcnt_eq, Nat.mul_succ]
  rw [quartetOutput_of_three hbytes, decQuartet_of_no_pad hpad, State.quartetDecoded, hcount, coreStep, hp]
  rw [decQuartet_of_no_pad hpad] at hok
  have hend := endBody_of_running
    (s := s.putDst (3 * s.qidx) (bytes24 (decQuartet c0 c1 c2 c3 false).out)) h.running hq h.lLen_lt
  exact (decBodyStep_eq h.loadQuartet h.room.le).trans (congrArg _ ((if_pos hok).trans hend))

/-- The step of the padded last quartet, if it is accepted (R192). -/
theorem coreStep_final (h : DecodeDue s [c0, c1, c2, c3]) (hp : s.phase = .decFinal) (hpad : 0 < quartetPad c2 c3 true)
    (hok : (decQuartet c0 c1 c2 c3 true).status = .ok) :
    coreStep s = .next ((s.putDst (3 * s.qidx) (quartetOutput (decQuartet c0 c1 c2 c3 true))).endFinal
      (3 - quartetPad c2 c3 true)) := by
  have hbytes := nbytes_of_ok hok
  have hpad_le := quartetPad_le c2 c3 true
  rw [← finalBytes_eq (by omega), ← hbytes, coreStep, hp]
  exact (decFinalStep_eq h.loadQuartet h.room.le).trans (congrArg _ (if_pos hok))

/-- The step of the last quartet, if it is accepted. -/
theorem coreStep_last (h : DecodeDue s [c0, c1, c2, c3]) (hok : (decQuartet c0 c1 c2 c3 true).status = .ok) :
    ∃ t, coreStep s = .next t ∧ DecodeEnds s [c0, c1, c2, c3] t := by
  have hroom := h.room
  have hchars : decodeChars [c0, c1, c2, c3] = (.ok, quartetOutput (decQuartet c0 c1 c2 c3 true)) := by
    rw [decodeChars_of_ok (rest := []) hok, decodeChars_nil, List.append_nil, List.isEmpty_nil]
  have hlength := length_quartetOutput hok
  obtain ⟨hp, hq⟩ | ⟨hp, hpad, hq⟩ := h.phase
  · have hpad : quartetPad c2 c3 true = 0 := h.quartetPad_of_body hq
    have hpadc : s.padc = 0 := BitVec.eq_of_toNat_eq (h.padc_eq.trans hpad)
    have hlast : s.qidx + 1 = s.nb := by
      obtain ⟨-, -, -, -, -, -, hbodies, -⟩ := h.running
      obtain ⟨-, hlen⟩ := h.quartets_left
      have hleft : s.lLen = 4 * s.qidx + 4 := h.length
      omega
    have hstep := h.coreStep_body hp hq hok
    simp only [hlast, hpadc, if_true] at hstep
    refine ⟨_, hstep, rfl, rfl, rfl, by rw [hchars]; rfl, ?_, rfl, by rw [hchars]; rfl⟩
    rw [hchars, hlength, hpad, ← hlast]
    rfl
  · obtain ⟨-, hpad⟩ := h.last_of_final hpad hq
    have fit : s.fit (3 * s.qidx + (3 - quartetPad c2 c3 true)) = 3 * s.qidx + (3 - quartetPad c2 c3 true) :=
      State.fit_of_lt (by omega)
    refine ⟨_, h.coreStep_final hp hpad hok, rfl, rfl, rfl, by rw [hchars]; rfl, ?_, rfl, by rw [hchars]; rfl⟩
    rw [hchars, hlength, State.endFinal_eq, State.finish_outLen]
    change s.fit (s.fit (s.wcnt + _)) = _
    rw [h.wcnt_eq, fit, fit]

/-- Where the last body quartet is not the last quartet, padding is left. -/
theorem padc_pos_of_last_body (h : DecodeDue s (c0 :: c1 :: c2 :: c3 :: rest)) (hrest : rest ≠ [])
    (hlast : s.qidx + 1 = s.nb) : 0 < s.padc.toNat := by
  obtain ⟨-, -, -, -, -, -, hbodies, -⟩ := h.running
  obtain ⟨-, hlen⟩ := h.quartets_left
  have hleft := h.length
  have hmore := List.length_pos_iff.mpr hrest
  simp only [List.length_cons] at hleft
  split_ifs at hbodies with hpadc
  · exact hpadc
  · omega

/-- The characters after the due quartet, counted from the next one on. -/
theorem next_source (h : DecodeDue s (c0 :: c1 :: c2 :: c3 :: rest)) :
    s.lLen = 4 * (s.qidx + 1) + rest.length ∧ ∀ i < rest.length, s.src.read (4 * (s.qidx + 1) + i) = rest[i]? := by
  refine ⟨?_, fun i hi => ?_⟩
  · have hleft := h.length
    simp only [List.length_cons] at hleft
    omega
  · have hsrc := h.source (i + 4) (Nat.add_lt_add_right hi 4)
    rwa [Nat.add_comm i 4, ← Nat.add_assoc, ← Nat.mul_succ, Nat.add_comm 4 i] at hsrc

/-- The step of an accepted quartet that is not the last leaves the characters after it due. -/
theorem coreStep_next (h : DecodeDue s (c0 :: c1 :: c2 :: c3 :: rest)) (hrest : rest ≠ [])
    (hok : (decQuartet c0 c1 c2 c3 rest.isEmpty).status = .ok) :
    ∃ t, coreStep s = .next t ∧ DecodeDue t rest ∧ t.qidx = s.qidx + 1 ∧ t.src = s.src ∧
      t.dst = s.dst.writeList (3 * s.qidx) (quartetOutput (decQuartet c0 c1 c2 c3 rest.isEmpty)) := by
  obtain ⟨hp, hq⟩ | ⟨-, hpad, hq⟩ := h.phase
  · have hrun : DecodeRunning (s.quartetDecoded (quartetOutput (decQuartet c0 c1 c2 c3 rest.isEmpty))) := by
      obtain ⟨hw, hpos, hmul, hpad, hcap, hquartets, hbodies, -⟩ := h.running
      exact ⟨hw, hpos, hmul, hpad, hcap, hquartets, hbodies, rfl⟩
    obtain ⟨hlength, hsource⟩ := h.next_source
    have hstep := h.coreStep_body hp hq hok
    dsimp only at hstep
    by_cases hlast : s.qidx + 1 = s.nb
    · have hpadc := h.padc_pos_of_last_body hrest hlast
      have hne : s.padc ≠ 0 := fun h0 => by simp [h0] at hpadc
      rw [if_pos hlast, if_neg hne] at hstep
      exact ⟨_, hstep, ⟨h.program, hrun, .inr ⟨rfl, hpadc, hlast⟩, h.lLen_lt, hlength, hsource⟩, rfl, rfl, rfl⟩
    · rw [if_neg hlast] at hstep
      have hbody : s.qidx + 1 < s.nb := by omega
      exact ⟨_, hstep, ⟨h.program, hrun, .inl ⟨hp, hbody⟩, h.lLen_lt, hlength, hsource⟩, rfl, rfl, rfl⟩
  · exact absurd (h.last_of_final hpad hq).1 hrest

end Quartet

/-- Quartet by quartet, a DECODE is busy for as many steps as it examines quartets (R195). -/
theorem busyFor (h : DecodeDue s cs) : ∃ t, BusyFor (quartetsExamined cs) s t ∧ DecodeEnds s cs t := by
  induction cs using decodeChars.induct generalizing s
  case case1 c0 c1 c2 c3 rest r hok ih =>
    rw [quartetsExamined, if_pos hok, Nat.add_comm 1]
    by_cases hrest : rest = []
    · subst hrest
      obtain ⟨t, hstep, hend⟩ := h.coreStep_last hok
      exact ⟨t, .head h.busy h.program hstep (.refl t), hend⟩
    · obtain ⟨t, hstep, hdue, hqidx, hsrc, hdst⟩ := h.coreStep_next hrest hok
      obtain ⟨u, hrun, hend⟩ := ih hdue
      exact ⟨u, .head h.busy h.program hstep hrun, hend.of_quartet hok hrest hqidx hsrc hdst⟩
  case case2 c0 c1 c2 c3 rest r hbad =>
    rw [quartetsExamined, if_neg hbad]
    have hchars := decodeChars_of_not_ok hbad
    refine ⟨_, .head h.busy h.program (h.coreStep_of_not_ok hbad) (.refl _), rfl, rfl, rfl, ?_, ?_, rfl, ?_⟩
    · rw [hchars]; rfl
    · rw [hchars]; rfl
    · rw [hchars]; rfl
  case case3 cs hnone =>
    obtain ⟨c0, c1, c2, c3, rest, rfl⟩ := h.exists_quartet
    exact absurd rfl (hnone c0 c1 c2 c3 rest)

end DecodeDue

/-! ### The whole operation (R195) -/

section Begin

variable {s : State} {cs : List Byte} {p : BitVec 2}

/-- The setup of a DECODE with room for its bytes. -/
theorem checkCapacity_of_room (hmul : s.lLen % 4 = 0) (hroom : s.lLen / 4 * 3 - s.padc.toNat ≤ s.lCap) :
    s.checkCapacity = s.beginDecode (s.lLen / 4) (s.lLen / 4 - (if 0 < s.padc.toNat then 1 else 0)) := by
  obtain ⟨hshort, -⟩ | ⟨-, h⟩ := s.checkCapacity_cases
  · rw [maxDecodedSize_of_mod_eq hmul] at hshort
    omega
  · exact h

theorem State.beginDecode_phase_cases (s : State) (quartets bodies : Nat) :
    (s.beginDecode quartets bodies).phase = .decBody ∨ (s.beginDecode quartets bodies).phase = .decFinal := by
  rw [State.beginDecode_phase]
  split_ifs
  · exact .inl rfl
  · exact .inr rfl

/-- The setup leaves the first quartet due: what a coherent state says of it, which does not depend on DONE. -/
theorem DecodeDue.begin (h : CommandDue s 0x79 cs) (hpos : 0 < s.lLen) (hmul : s.lLen % 4 = 0)
    (hpad : SourcePad s.src s.lLen s.padc.toNat) (hroom : s.lLen / 4 * 3 - s.padc.toNat ≤ s.lCap) :
    DecodeDue (s.beginDecode (s.lLen / 4) (s.lLen / 4 - (if 0 < s.padc.toNat then 1 else 0))) cs := by
  have hc := coherent_checkCapacity (s := { s with done := false }) rfl h.word hpos hmul h.lLen_lt hpad
  rw [checkCapacity_of_room (s := { s with done := false }) hmul hroom] at hc
  obtain ⟨-, -, hbody, hfinal⟩ := hc
  have hlength : s.lLen = 4 * 0 + cs.length := by simpa using h.length
  have hsource : ∀ i < cs.length, s.src.read (4 * 0 + i) = cs[i]? := by simpa using h.source
  rcases s.beginDecode_phase_cases _ _ with hp | hp
  · obtain ⟨hrun, hq⟩ := hbody hp
    exact ⟨h.program, hrun, .inl ⟨hp, hq⟩, h.lLen_lt, hlength, hsource⟩
  · obtain ⟨hrun, hpadc, hq⟩ := hfinal hp
    exact ⟨h.program, hrun, .inr ⟨hp, hpadc, hq⟩, h.lLen_lt, hlength, hsource⟩

theorem CommandDue.setPadc {w : Word} (h : CommandDue s w cs) : CommandDue (s.setPadc p) w cs :=
  ⟨h.phase, h.word, h.program, h.length, h.lLen_lt, h.source⟩

/-- The whole DECODE past its checks: the START step, and the steps of the quartets it examines. -/
theorem busyFor_decode (h : CommandDue s 0x79 cs) (hpos : 0 < s.lLen) (hmul : s.lLen % 4 = 0) (hcap : 0 < s.lCap)
    (hpad : SourcePad s.src s.lLen p.toNat) (hroom : s.lLen / 4 * 3 - p.toNat ≤ s.lCap) :
    ∃ t, BusyFor (1 + quartetsExamined cs) s t ∧ t.phase = .idle ∧ t.done = true ∧ t.result = 0 ∧
      t.status = (decodeChars cs).1 ∧ t.outLen = (decodeChars cs).2.length ∧ t.src = s.src ∧
      t.dst = s.dst.writeList 0 (decodeChars cs).2 := by
  have hstart : coreStep s = .next (s.setPadc p).checkCapacity := by
    rw [coreStep, h.phase]
    simp only [startStep_decode h.word hpos hmul hcap, (State.sourcePad_ok hpos h.lLen_lt).mpr hpad]
    rfl
  rw [checkCapacity_of_room (s := s.setPadc p) hmul hroom] at hstart
  obtain ⟨t, hrun, hend⟩ := (DecodeDue.begin (h.setPadc (p := p)) hpos hmul hpad hroom).busyFor
  obtain ⟨hphase, hdone, hresult, hstatus, hout, hsame, hdst⟩ := hend
  refine ⟨t, ?_, hphase, hdone, hresult, hstatus, ?_, hsame, hdst⟩
  · rw [Nat.add_comm]
    exact .head h.busy h.program hstart hrun
  · simpa using hout

end Begin

/-! ### The round trip on the machine (R163) -/

/-- A source of at least two characters shows the padding that its last two give. -/
theorem exists_sourcePad {m : Memory} {cs : List Byte} (hsrc : Holds m cs) (hlen : 2 ≤ cs.length) :
    ∃ p : BitVec 2, p.toNat = quartetPad (cs.getD (cs.length - 2) 0) (cs.getD (cs.length - 1) 0) true ∧
      SourcePad m cs.length p.toNat := by
  have read {i : Nat} (hi : i < cs.length) : m.read i = some (cs.getD i 0) := by
    rw [hsrc i hi, getElem?_eq_some_getD hi]
  have hpad := quartetPad_le (cs.getD (cs.length - 2) 0) (cs.getD (cs.length - 1) 0) true
  have hnat := (BitVec.toNat_ofNat _ 2).trans (Nat.mod_eq_of_lt (hpad.trans_lt (by decide)))
  exact ⟨_, hnat, (sourcePad_iff (read (by omega)) (read (by omega))).mpr hnat⟩

/-- A DECODE of characters that decode OK to `bs`, with room for `bs`, reports and leaves `bs`. -/
theorem runSteps_decode_of_ok {s : State} {cs bs : List Byte} (h : CommandDue s 0x79 cs) (hpos : 0 < s.lLen)
    (hmul : s.lLen % 4 = 0) (hcap : 0 < s.lCap) (hok : decodeChars cs = (.ok, bs)) (hroom : bs.length ≤ s.lCap) :
    ∃ n t, runSteps n s = .next t ∧ t.phase = .idle ∧ t.done = true ∧ t.status = .ok ∧ t.outLen = bs.length ∧
      Holds t.dst bs := by
  have hlen := h.length
  obtain ⟨p, hp, hpad⟩ := exists_sourcePad h.source (by omega)
  have hcount := length_decodeChars_of_ok (cs := cs) (by omega) (by omega) (congrArg Prod.fst hok)
  rw [← hlen] at hpad
  rw [hok, ← hp, ← hlen] at hcount
  dsimp only at hcount
  obtain ⟨t, ⟨hrun, -⟩, hphase, hdone, -, hstatus, hout, -, hdst⟩ := busyFor_decode h hpos hmul hcap hpad (by omega)
  rw [hok] at hstatus hout hdst
  exact ⟨_, t, hrun, hphase, hdone, hstatus, hout, hdst ▸ holds_writeList s.dst bs⟩

/-- Settles O59: the ENCODE leaves `encodeBytes` of the bytes in DST, which `decodeChars` gives back (O57). -/
theorem machineRoundTrip : Obligations.MachineRoundTrip := by
  unfold Obligations.MachineRoundTrip
  intro s bs cap2 hp hw hprog hlen hpos hlt hcap hsrc hroom hcap2 _
  obtain ⟨hrun, -⟩ := busyFor_encode ⟨hp, hw, hprog, hlen, hlt, hsrc⟩ hcap hpos hroom
  have hsize : (encodeBytes bs).length = encodedSize s.lLen := by rw [length_encodeBytes, hlen]
  have hsize_pos : 0 < encodedSize s.lLen := by
    rw [encodedSize]
    omega
  refine ⟨_, _, hrun, rfl, rfl, fun m hm => ?_⟩
  have hcopy : Holds m (encodeBytes bs) := fun i hi =>
    (hm i (hi.trans_eq hsize)).trans (holds_writeList s.dst (encodeBytes bs) i hi)
  exact runSteps_decode_of_ok ⟨rfl, rfl, hprog, hsize.symm, hroom.trans_lt hcap, hcopy⟩ hsize_pos
    (encodedSize_mod_four s.lLen) (hpos.trans_le hcap2) (decodeChars_encodeBytes bs) (hlen ▸ hcap2)

end Sys2Proof.Machine
end

section
/-! PROOFS. The quartet transform case by case of its padding (R181), DECQUAD (R182), and where a source that decodes
can hold a `=` (R196). -/

namespace Sys2Proof.Machine

open Sys2Proof.Safety

/-! ### The quartet transform by its padding (R181) -/

theorem quartetPad_of_unpadded {c2 c3 : Byte} {final : Bool} (h : final = false ∨ c3 ≠ padChar) :
    quartetPad c2 c3 final = 0 := if_neg (by simpa [imp_iff_not_or] using h)

theorem quartetPad_one {c2 : Byte} (h : c2 ≠ padChar) : quartetPad c2 padChar true = 1 := by
  simp [quartetPad, h]

theorem quartetPad_two : quartetPad padChar padChar true = 2 := rfl

section Quartet

variable {c0 c1 c2 c3 : Byte} {final : Bool}

theorem decQuartet_unpadded (h : quartetPad c2 c3 final = 0) :
    decQuartet c0 c1 c2 c3 final =
      if legal c0 ∧ legal c1 ∧ legal c2 ∧ legal c3 then ⟨.ok, 3, val c0 ++ val c1 ++ val c2 ++ val c3⟩
      else ⟨.invBody, 0, 0⟩ := by
  have hbytes := bytes_append (val c0 ++ val c1 ++ val c2 ++ val c3)
  simp [decQuartet, h, quartetBytes, hbytes, and_assoc]

/-- A padded quartet needs its symbols only: two, and a third where one `=` stands. -/
theorem decQuartet_padded (h : 0 < quartetPad c2 c3 final) :
    decQuartet c0 c1 c2 c3 final =
      if legal c0 ∧ legal c1 ∧ (quartetPad c2 c3 final = 1 → legal c2) then
        quartetBytes c0 c1 c2 c3 (quartetPad c2 c3 final)
      else ⟨.invFinal, 0, 0⟩ := by
  rw [decQuartet, if_neg h.ne']
  by_cases h01 : legal c0 ∧ legal c1
  · obtain ⟨h0, h1⟩ := h01
    rw [if_neg (by simp [h0, h1])]
    by_cases h2 : quartetPad c2 c3 final = 1 → legal c2
    · rw [if_neg (by simpa using h2), if_pos ⟨h0, h1, h2⟩]
    · rw [if_pos (by simpa using h2), if_neg fun ⟨_, _, h2'⟩ => h2 h2']
  · rw [if_pos (by simpa [imp_iff_not_or] using h01), if_neg fun ⟨h0, h1, _⟩ => h01 ⟨h0, h1⟩]

theorem status_unpadded (h : quartetPad c2 c3 final = 0) :
    (decQuartet c0 c1 c2 c3 final).status = .ok ↔ legal c0 ∧ legal c1 ∧ legal c2 ∧ legal c3 := by
  rw [decQuartet_unpadded h]
  split_ifs with hl <;> simp [hl]

theorem status_padded (h : 0 < quartetPad c2 c3 final) :
    (decQuartet c0 c1 c2 c3 final).status = .ok ↔
      legal c0 ∧ legal c1 ∧ (quartetPad c2 c3 final = 1 → legal c2) := by
  rw [decQuartet_padded h]
  split_ifs with hl
  · exact iff_of_true rfl hl
  · exact iff_of_false (by simp) hl

/-- The bytes of an accepted quartet are the first of its four fields' (R181). -/
theorem quartetOutput_of_ok (h : (decQuartet c0 c1 c2 c3 final).status = .ok) :
    quartetOutput (decQuartet c0 c1 c2 c3 final) =
      (bytes24 (val c0 ++ val c1 ++ val c2 ++ val c3)).take (3 - quartetPad c2 c3 final) := by
  obtain hc | hc := decQuartet_cases c0 c1 c2 c3 final
  · have hpad := quartetPad_le c2 c3 final
    rw [hc]
    generalize quartetPad c2 c3 final = pad at hpad
    rw [quartetOutput, quartetBytes]
    dsimp only
    rw [bytes24_append]
    interval_cases pad <;> rfl
  · rw [hc] at h
    split_ifs at h

end Quartet

/-- Settles O22: the padding is 0, 1 or 2, and each leaves that many of the low bytes out. -/
theorem quartetTransform : Obligations.QuartetTransform := by
  unfold Obligations.QuartetTransform
  intro c0 c1 c2 c3 final v
  refine ⟨fun h => decQuartet_unpadded (quartetPad_of_unpadded h), ?_, ?_⟩
  · rintro rfl rfl h2
    have hpad : quartetPad c2 0x3D true = 1 := quartetPad_one h2
    have hout : v.extractLsb' 16 8 ++ v.extractLsb' 8 8 = v.extractLsb' 8 16 :=
      BitVec.extractLsb'_append_extractLsb'_eq_extractLsb' rfl
    rw [decQuartet_padded (by rw [hpad]; decide), hpad, ← hout]
    simp only [forall_const]
    rfl
  · rintro rfl rfl rfl
    have hout : v.extractLsb' 16 8 ++ 0#8 ++ 0#8 = v.extractLsb' 16 8 ++ 0#16 := BitVec.append_assoc
    have hpad : quartetPad 0x3D 0x3D true = 2 := quartetPad_two
    rw [decQuartet_padded (by rw [hpad]; decide), hpad, ← hout]
    simp only [OfNat.ofNat_ne_one, false_imp_iff, and_true]
    rfl

/-! ### DECQUAD (R182) -/

theorem nbytes_le (c0 c1 c2 c3 : Byte) (final : Bool) : (decQuartet c0 c1 c2 c3 final).nbytes ≤ 3 := by
  obtain h | h := decQuartet_cases c0 c1 c2 c3 final <;> rw [h]
  · exact Nat.sub_le 3 _
  · exact Nat.zero_le 3

theorem outputs_of_not_ok {c0 c1 c2 c3 : Byte} {final : Bool} (h : (decQuartet c0 c1 c2 c3 final).status ≠ .ok) :
    (decQuartet c0 c1 c2 c3 final).nbytes = 0 ∧ (decQuartet c0 c1 c2 c3 final).out = 0 := by
  obtain hc | hc := decQuartet_cases c0 c1 c2 c3 final <;> rw [hc] at h ⊢
  · exact absurd rfl h
  · exact ⟨rfl, rfl⟩

theorem status_invBody_or_invFinal {c0 c1 c2 c3 : Byte} {final : Bool}
    (h : (decQuartet c0 c1 c2 c3 final).status ≠ .ok) :
    (decQuartet c0 c1 c2 c3 final).status = .invBody ∨ (decQuartet c0 c1 c2 c3 final).status = .invFinal := by
  rw [status_of_not_ok h]
  split_ifs
  · exact .inl rfl
  · exact .inr rfl

/-- Settles O23: exec of DECQUAD finishes with the outputs of the transform, whose count fits every LEN_W. -/
theorem decquadResult : Obligations.DecquadResult := by
  unfold Obligations.DecquadResult
  obtain ⟨-, -, -, -, -, -, -, hbody, hfinal, -⟩ := notationWordsDecode
  refine ⟨hbody, hfinal, fun final s => ?_⟩
  intro r
  refine ⟨?_, outputs_of_not_ok, ?_⟩
  · have hfit : r.nbytes < s.lenW.cells :=
      (nbytes_le ..).trans_lt (lt_of_lt_of_le (by decide) s.lenW.cells_bounds.1)
    have hresult : r.out.setWidth 32 = 0#8 ++ r.out := BitVec.setWidth_eq_append (by decide)
    rw [← hresult]
    exact congrArg Host.Outcome.next (State.finish_of_lt _ _ hfit)
  · by_cases hok : r.status = .ok
    · exact .inl hok
    · exact .inr (status_invBody_or_invFinal hok)

/-! ### What `decodeChars` can end in (R191, R192) -/

/-- A decoding that fails does so in one of two ways, and the quartets before it gave three bytes each. -/
theorem decodeChars_failed {cs : List Byte} (h : (decodeChars cs).1 ≠ .ok) :
    ((decodeChars cs).1 = .invBody ∨ (decodeChars cs).1 = .invFinal) ∧ (decodeChars cs).2.length % 3 = 0 := by
  induction cs using decodeChars.induct with
  | case1 c0 c1 c2 c3 rest r hr ih =>
    rw [decodeChars_of_ok hr] at h ⊢
    obtain ⟨hstatus, hcount⟩ := ih h
    have hbody : rest.isEmpty = false := List.isEmpty_eq_false_iff.mpr fun hnil => h (by rw [hnil, decodeChars_nil])
    have hout := length_quartetOutput hr
    rw [hbody, quartetPad_body] at hout
    refine ⟨hstatus, ?_⟩
    rw [List.length_append, hbody, hout]
    omega
  | case2 c0 c1 c2 c3 rest r hr =>
    rw [decodeChars_of_not_ok hr]
    exact ⟨status_invBody_or_invFinal hr, rfl⟩
  | case3 cs hnone =>
    match cs with
    | [] | [_] | [_, _] | [_, _, _] => exact absurd rfl h
    | c0 :: c1 :: c2 :: c3 :: rest => exact absurd rfl (hnone c0 c1 c2 c3 rest)

/-! ### Where a `=` can stand (R196) -/

/-- A `=` at index `i` is in the last two places, and in the last but one it has a `=` after it. -/
def PadPlaced (cs : List Byte) (i : Nat) : Prop :=
  cs.length ≤ i + 2 ∧ (i + 2 = cs.length → cs[cs.length - 1]? = some padChar)

theorem ne_padChar_of_legal {x : Byte} (h : legal x = true) : x ≠ padChar := by
  rintro rfl
  simp at h

/-- An accepted last quartet has a `=` in its last two places only. -/
theorem padPlaced_last {c0 c1 c2 c3 : Byte} (hok : (decQuartet c0 c1 c2 c3 true).status = .ok) {i : Nat}
    (hi : [c0, c1, c2, c3][i]? = some padChar) : PadPlaced [c0, c1, c2, c3] i := by
  have hsymbols : c0 ≠ padChar ∧ c1 ≠ padChar ∧ (c2 = padChar → c3 = padChar) := by
    rcases Nat.eq_zero_or_pos (quartetPad c2 c3 true) with hpad | hpad
    · obtain ⟨h0, h1, h2, -⟩ := (status_unpadded hpad).mp hok
      exact ⟨ne_padChar_of_legal h0, ne_padChar_of_legal h1, fun h => absurd h (ne_padChar_of_legal h2)⟩
    · obtain ⟨h0, h1, -⟩ := (status_padded hpad).mp hok
      have h3 : c3 = padChar := by
        by_contra h3
        exact hpad.ne' (quartetPad_of_unpadded (.inr h3))
      exact ⟨ne_padChar_of_legal h0, ne_padChar_of_legal h1, fun _ => h3⟩
  obtain ⟨h0, h1, h2⟩ := hsymbols
  match i with
  | 0 => exact absurd (Option.some.inj hi) h0
  | 1 => exact absurd (Option.some.inj hi) h1
  | 2 => exact ⟨le_rfl, fun _ => congrArg some (h2 (Option.some.inj hi))⟩
  | 3 => exact ⟨Nat.le_succ 4, fun h => absurd h (by decide : 3 + 2 ≠ 4)⟩
  | i + 4 => cases hi

/-- An accepted quartet before the last has no `=`. -/
theorem not_pad_in_body {c0 c1 c2 c3 : Byte} {rest : List Byte} (hok : (decQuartet c0 c1 c2 c3 false).status = .ok)
    {i : Nat} (hi : (c0 :: c1 :: c2 :: c3 :: rest)[i]? = some padChar) :
    ∃ j, i = j + 4 ∧ rest[j]? = some padChar := by
  obtain ⟨h0, h1, h2, h3⟩ := (status_unpadded (quartetPad_body c2 c3)).mp hok
  match i with
  | 0 => exact absurd (Option.some.inj hi) (ne_padChar_of_legal h0)
  | 1 => exact absurd (Option.some.inj hi) (ne_padChar_of_legal h1)
  | 2 => exact absurd (Option.some.inj hi) (ne_padChar_of_legal h2)
  | 3 => exact absurd (Option.some.inj hi) (ne_padChar_of_legal h3)
  | i + 4 => exact ⟨i, rfl, hi⟩

/-- The places are counted from the end, so that characters put before them change nothing. -/
theorem PadPlaced.after_quartet {c0 c1 c2 c3 : Byte} {rest : List Byte} {i : Nat} (h : PadPlaced rest i)
    (hrest : rest ≠ []) : PadPlaced (c0 :: c1 :: c2 :: c3 :: rest) (i + 4) := by
  obtain ⟨hlast, hpair⟩ := h
  have hlen : (c0 :: c1 :: c2 :: c3 :: rest).length = rest.length + 4 := rfl
  have hend : rest.length + 4 - 1 = rest.length - 1 + 4 := by
    have := List.length_pos_iff.mpr hrest
    omega
  rw [PadPlaced, hlen, hend]
  exact ⟨by omega, fun h => hpair (by omega)⟩

theorem padPlaced_of_ok {cs : List Byte} (hmul : cs.length % 4 = 0) (hok : (decodeChars cs).1 = .ok) {i : Nat}
    (hi : cs[i]? = some padChar) : PadPlaced cs i := by
  induction cs using decodeChars.induct generalizing i with
  | case1 c0 c1 c2 c3 rest r hr ih =>
    by_cases hrest : rest = []
    · subst hrest
      exact padPlaced_last hr hi
    · rw [decodeChars_of_ok hr] at hok
      have hbody : rest.isEmpty = false := List.isEmpty_eq_false_iff.mpr hrest
      obtain ⟨j, rfl, hj⟩ := not_pad_in_body (hbody ▸ hr) hi
      simp only [List.length_cons] at hmul
      exact (ih (by omega) hok hj).after_quartet hrest
  | case2 c0 c1 c2 c3 rest r hr =>
    rw [decodeChars_of_not_ok hr] at hok
    exact absurd hok hr
  | case3 cs hnone =>
    match cs with
    | [] => cases hi
    | [_] | [_, _] | [_, _, _] => simp at hmul
    | c0 :: c1 :: c2 :: c3 :: rest => exact absurd rfl (hnone c0 c1 c2 c3 rest)

/-- Settles O60: a source that decodes OK has each `=` in place, so one with a `=` elsewhere fails. -/
theorem paddingPlacement : Obligations.PaddingPlacement := by
  unfold Obligations.PaddingPlacement
  intro cs hmul
  refine ⟨fun hok i hi => padPlaced_of_ok hmul hok hi, ?_⟩
  rintro ⟨i, hi, hplace⟩
  refine (decodeChars_failed fun hok => ?_).1
  obtain ⟨hlast, hpair⟩ := padPlaced_of_ok hmul hok hi
  obtain hearly | ⟨hpen, hne⟩ := hplace
  · omega
  · exact hne (hpair hpen)

end Sys2Proof.Machine
end

section
/-! PROOFS. DECODE step by step: its START step (R190), a body step (R191), the final step (R192), the transitions of
PHASE (R194), and the whole operation (R195). -/

namespace Sys2Proof.Machine

open Sys2Proof.Safety

/-! ### The START step (R190) -/

theorem exec_decode_param {srcP dstP lenP : Bool} {s : State}
    (h : srcP = false ∨ dstP = false ∨ lenP = false ∨ s.lLen = 0 ∨ s.lCap = 0) :
    exec (.decode srcP dstP lenP) s = .next (s.finish .param 0 0) := if_pos (by simpa [or_assoc] using h)

section Present

variable {s : State} (hpos : 0 < s.lLen) (hcap : 0 < s.lCap)

include hpos hcap

theorem exec_decode_length (h : s.lLen % 4 ≠ 0) :
    exec (.decode true true true) s = .next (s.finish .length 0 0) :=
  (if_neg (by simp [hpos.ne', hcap.ne'])).trans (if_pos (lenErr_eq_true_iff.mpr h))

variable {p : BitVec 2} (hmul : s.lLen % 4 = 0) (hlt : s.lLen < s.lenW.cells) (hpad : SourcePad s.src s.lLen p.toNat)

include hmul hlt hpad

theorem exec_decode_checkCapacity :
    exec (.decode true true true) s = .next (s.setPadc p).checkCapacity := by
  rw [exec, execDecode, if_neg (by simp [hpos.ne', hcap.ne']), if_neg (by simp [hmul]),
    (State.sourcePad_ok hpos hlt).mpr hpad]
  rfl

theorem exec_decode_capacity (hshort : s.lCap < s.lLen / 4 * 3 - p.toNat) :
    exec (.decode true true true) s = .next ((s.setPadc p).finish .capacity 0 0) := by
  rw [← maxDecodedSize_of_mod_eq hmul] at hshort
  exact (exec_decode_checkCapacity hpos hcap hmul hlt hpad).trans (congrArg _ (if_pos hshort))

theorem exec_decode_setup (hroom : s.lLen / 4 * 3 - p.toNat ≤ s.lCap) :
    exec (.decode true true true) s = .next ((s.setPadc p).beginDecode (s.lLen / 4)
      (s.lLen / 4 - (if 0 < p.toNat then 1 else 0))) :=
  (exec_decode_checkCapacity hpos hcap hmul hlt hpad).trans
    (congrArg _ (checkCapacity_of_room (s := s.setPadc p) hmul hroom))

end Present

/-- The setup of a DECODE whose quartets a LEN_W-bit register counts (R190). -/
theorem beginDecode_of_lt {s : State} {quartets bodies : Nat} (hq : quartets < s.lenW.cells) (hb : bodies ≤ quartets) :
    s.beginDecode quartets bodies = { s with
      nq := quartets, nb := bodies, qidx := 0, wcnt := 0, phase := if 0 < bodies then .decBody else .decFinal } := by
  rw [State.beginDecode, State.fit_of_lt hq, State.fit_of_lt (hb.trans_lt hq)]

/-- Settles O26: one case per branch of DECODE's START step. -/
theorem decodeStart : Obligations.DecodeStart := by
  unfold Obligations.DecodeStart
  intro srcP dstP lenP s
  refine ⟨fun h => ?_, ?_⟩
  · rw [exec_decode_param h, State.finish_outLen_zero]
  · rintro rfl rfl rfl hpos hcap
    refine ⟨fun h => ?_, fun p hmul hlt hpad => ⟨fun hshort => ⟨p, ?_⟩, fun hroom => ?_⟩⟩
    · rw [exec_decode_length hpos hcap h, State.finish_outLen_zero]
    · rw [exec_decode_capacity hpos hcap hmul hlt hpad hshort, State.finish_outLen_zero]
      rfl
    · have hquartets : s.lLen / 4 < s.lenW.cells := by omega
      rw [exec_decode_setup hpos hcap hmul hlt hpad hroom]
      exact congrArg _ (beginDecode_of_lt (s := s.setPadc p) hquartets (Nat.sub_le _ _))

/-! ### The quartet steps (R191, R192) -/

section QuartetStep

variable {s : State} {c0 c1 c2 c3 : Byte} (hi : Inv s) (h0 : s.src.read (4 * s.qidx) = some c0)
  (h1 : s.src.read (4 * s.qidx + 1) = some c1) (h2 : s.src.read (4 * s.qidx + 2) = some c2)
  (h3 : s.src.read (4 * s.qidx + 3) = some c3)

include hi h0 h1 h2 h3

theorem loadQuartet_due (hp : s.phase = .decBody ∨ s.phase = .decFinal) :
    s.loadQuartet s.qidx = .ok ⟨c0, c1, c2, c3⟩ := by
  obtain ⟨hbelow, -⟩ := quartet_bounds hi hp
  have hlt := lLen_lt_cells hi
  exact State.loadQuartet_ok.mpr ⟨State.loadSrc_ok.mpr ⟨by omega, h0⟩, State.loadSrc_ok.mpr ⟨by omega, h1⟩,
    State.loadSrc_ok.mpr ⟨by omega, h2⟩, State.loadSrc_ok.mpr ⟨by omega, h3⟩⟩

theorem coreStep_decBody (hp : s.phase = .decBody) :
    coreStep s = .next (
      if (decQuartet c0 c1 c2 c3 false).status = .ok then
        (s.putDst (3 * s.qidx) (bytes24 (decQuartet c0 c1 c2 c3 false).out)).endBody
      else s.finish .invBody s.wcnt 0) := by
  rw [coreStep, hp]
  exact decBodyStep_eq (loadQuartet_due hi h0 h1 h2 h3 (.inl hp)) (quartet_bounds hi (.inl hp)).2

theorem coreStep_decFinal (hp : s.phase = .decFinal) :
    coreStep s = .next (
      if (decQuartet c0 c1 c2 c3 true).status = .ok then
        (s.putDst (3 * s.qidx) (finalBytes (decQuartet c0 c1 c2 c3 true))).endFinal
          (decQuartet c0 c1 c2 c3 true).nbytes
      else s.finish .invFinal s.wcnt 0) := by
  rw [coreStep, hp]
  exact decFinalStep_eq (loadQuartet_due hi h0 h1 h2 h3 (.inr hp)) (quartet_bounds hi (.inr hp)).2

omit h0 h1 in
/-- The quartet of a final step is the last one, and PADC is the padding it shows (R190). -/
theorem padc_of_final (hp : s.phase = .decFinal) :
    0 < s.padc.toNat ∧ s.padc.toNat = quartetPad c2 c3 true := by
  obtain ⟨-, -, -, -, hfinal⟩ := hi
  obtain ⟨⟨-, hpos, hmul, hpad, -, hquartets, hbodies, -⟩, hpadc, hq⟩ := hfinal hp
  rw [if_pos hpadc] at hbodies
  have hlen : s.lLen = 4 * s.qidx + 4 := by omega
  rw [hlen] at hpad
  exact ⟨hpadc, (sourcePad_iff h2 h3).mp hpad⟩

end QuartetStep

/-- The end of a final step whose total fits LEN_W bits (R192). -/
theorem endFinal_of_lt {s : State} {n : Nat} (h : s.wcnt + n < s.lenW.cells) :
    s.endFinal n = (s.advanceTo s.dst (s.wcnt + n) s.qidx).reportDecode .ok (s.wcnt + n) := by
  rw [State.endFinal_eq, State.countBytes, State.fit_of_lt h]
  exact State.finish_of_lt .ok 0 h

/-- Settles O28: a body quartet shows no padding, and a running DECODE's registers have room for its counts. -/
theorem decodeBodyStep : Obligations.DecodeBodyStep := by
  unfold Obligations.DecodeBodyStep
  intro s c0 c1 c2 c3 hi hp h0 h1 h2 h3
  obtain ⟨⟨-, -, -, -, -, -, -, hlen, -, -, -, -, hwcnt⟩, -, -, hbody, -⟩ := id hi
  obtain ⟨hrun, hq⟩ := hbody hp
  obtain ⟨-, -, -, -, -, -, -, hcount⟩ := id hrun
  rw [coreStep_decBody hi h0 h1 h2 h3 hp, decQuartet_unpadded (quartetPad_body c2 c3)]
  refine ⟨fun hbad => ?_, fun hok => ?_⟩
  · rw [if_neg hbad, ← hcount]
    exact congrArg _ (State.finish_of_lt .invBody 0 hwcnt)
  · rw [if_pos hok]
    exact congrArg _ (endBody_of_running (s := s.putDst _ _) hrun hq hlen)

/-- Settles O29: the final quartet shows PADC `=`, and is accepted when the symbols before them are legal. -/
theorem decodeFinalStep : Obligations.DecodeFinalStep := by
  unfold Obligations.DecodeFinalStep
  intro s c0 c1 c2 c3 hi hp h0 h1 h2 h3
  obtain ⟨⟨-, -, -, -, -, -, -, -, -, -, -, -, hwcnt⟩, -, -, -, hfinal⟩ := id hi
  obtain ⟨⟨-, -, -, -, -, -, -, hcount⟩, -, hq⟩ := hfinal hp
  rw [hq] at hcount
  obtain ⟨hpos, hpad⟩ := padc_of_final hi h2 h3 hp
  have hlegal := status_padded (c0 := c0) (c1 := c1) (hpad ▸ hpos)
  have hone : s.padc.toNat = 1 ↔ s.padc = 1 := BitVec.toNat_inj (x := s.padc) (y := 1)
  rw [← hpad, hone] at hlegal
  rw [coreStep_decFinal hi h0 h1 h2 h3 hp]
  refine ⟨fun hbad => ?_, fun hok => ?_⟩
  · rw [if_neg (hlegal.not.mpr hbad), ← hcount]
    exact congrArg _ (State.finish_of_lt .invFinal 0 hwcnt)
  · have hok := hlegal.mpr hok
    have hbytes := nbytes_of_ok hok
    have hle := quartetPad_le c2 c3 true
    have hroom := (quartet_bounds hi (.inr hp)).2
    rw [if_pos hok, finalBytes_eq (by omega), quartetOutput_of_ok hok, hbytes, ← hpad]
    exact congrArg _ (endFinal_of_lt (s := s.putDst _ _) (show s.wcnt + _ < s.lenW.cells by omega))

/-! ### The transitions of PHASE (R194) -/

/-- Settles O53: the end of each step says which PHASE it leaves. -/
theorem phaseTransitions : Obligations.PhaseTransitions := by
  unfold Obligations.PhaseTransitions
  intro s t hi h
  obtain ⟨⟨-, -, -, -, -, -, -, hlen, hcap, -⟩, -, henc, hbody, -⟩ := id hi
  rw [coreStep] at h
  cases hp : s.phase <;> rw [hp] at h
  case idle =>
    cases h
    rfl
  case start =>
    obtain ⟨st, ol, r, rfl⟩ | ⟨hw, -, -, rfl⟩ | ⟨hw, -, -, p, -, rfl⟩ := startStep_next h
    · exact .inl rfl
    · exact .inr (.inl ⟨hw, rfl⟩)
    · obtain ⟨-, hc⟩ | ⟨-, hc⟩ := (s.setPadc p).checkCapacity_cases <;> rw [hc]
      · exact .inl rfl
      · exact .inr (.inr ⟨hw, State.beginDecode_phase_cases ..⟩)
  case encGrp =>
    obtain ⟨-, g, -, -, rfl⟩ := encGroupStep_next h
    rw [endGroup_of_running (s := s.putDst _ _) (henc hp) hcap]
    dsimp only
    split_ifs with hlast
    · exact .inr ⟨rfl, hlast⟩
    · exact .inl ⟨hp, rfl⟩
  case decBody =>
    obtain ⟨hrun, hq⟩ := hbody hp
    obtain ⟨c, -, ⟨-, -, rfl⟩ | ⟨-, rfl⟩⟩ := decBodyStep_next h
    · rw [endBody_of_running (s := s.putDst _ _) hrun hq hlen]
      dsimp only
      split_ifs with hlast hpadc
      · exact .inr (.inr ⟨rfl, .inr ⟨hlast, hpadc⟩⟩)
      · exact .inr (.inl ⟨rfl, rfl, hlast, hpadc⟩)
      · exact .inl ⟨hp, rfl⟩
    · exact .inr (.inr ⟨rfl, .inl rfl⟩)
  case decFinal =>
    obtain ⟨c, -, ⟨-, -, rfl⟩ | ⟨-, rfl⟩⟩ := decFinalStep_next h
    · exact ⟨rfl, .inl rfl⟩
    · exact ⟨rfl, .inr rfl⟩

/-! ### The whole operation (R195) -/

theorem quartetsExamined_le (cs : List Byte) : quartetsExamined cs ≤ cs.length / 4 := by
  induction cs using decodeChars.induct with
  | case1 c0 c1 c2 c3 rest r hr ih =>
    rw [quartetsExamined, if_pos hr]
    simp only [List.length_cons]
    omega
  | case2 c0 c1 c2 c3 rest r hr =>
    rw [quartetsExamined, if_neg hr]
    simp only [List.length_cons]
    omega
  | case3 cs hnone =>
    match cs with
    | [] | [_] | [_, _] | [_, _, _] => exact Nat.zero_le _
    | c0 :: c1 :: c2 :: c3 :: rest => exact absurd rfl (hnone c0 c1 c2 c3 rest)

/-- The padding that a source shows is 0, 1 or 2, so that PADC holds it (R190). -/
theorem exists_padc {m : Memory} {n p : Nat} (h : SourcePad m n p) : ∃ b : BitVec 2, b.toNat = p := by
  obtain ⟨rfl, -⟩ | ⟨rfl, -⟩ | ⟨rfl, -⟩ := h
  · exact ⟨0, rfl⟩
  · exact ⟨1, rfl⟩
  · exact ⟨2, rfl⟩

/-- A source of whole quartets that decodes OK gives three bytes a quartet, less the padding it shows (R195). -/
theorem length_decodeChars_of_sourcePad {m : Memory} {cs : List Byte} {p : Nat} (hsrc : Holds m cs)
    (hmul : cs.length % 4 = 0) (hpos : 0 < cs.length) (hpad : SourcePad m cs.length p)
    (hok : (decodeChars cs).1 = .ok) : (decodeChars cs).2.length = cs.length / 4 * 3 - p := by
  have read {i : Nat} (hi : i < cs.length) : m.read i = some (cs.getD i 0) := by
    rw [hsrc i hi, getElem?_eq_some_getD hi]
  have hp := (sourcePad_iff (read (by omega)) (read (by omega))).mp hpad
  have hcount := length_decodeChars_of_ok hmul hpos hok
  omega

/-- The START step of the word 0x79 is that of a DECODE with every operand present. -/
theorem step_decode {s : State} {cs : List Byte} (h : CommandDue s 0x79 cs) :
    step s = exec (.decode true true true) s := by
  obtain ⟨-, -, -, -, -, -, -, -, -, -, hdecode, -⟩ := notationWordsDecode
  rw [step_eq_coreStep h.busy h.program, coreStep, h.phase]
  simp only [startStep, h.word, hdecode]

/-- A DECODE that fails in its START step ends there with nothing written (R190). -/
theorem exec_decode_failed {s : State} (hlt : s.lLen < s.lenW.cells)
    (h : s.lLen = 0 ∨ s.lCap = 0 ∨ s.lLen % 4 ≠ 0 ∨ ∃ p, SourcePad s.src s.lLen p ∧ s.lCap < s.lLen / 4 * 3 - p) :
    ∃ q st, exec (.decode true true true) s = .next ((s.setPadc q).finish st 0 0) := by
  by_cases hlen : s.lLen = 0
  · exact ⟨s.padc, _, exec_decode_param (.inr (.inr (.inr (.inl hlen))))⟩
  by_cases hcap : s.lCap = 0
  · exact ⟨s.padc, _, exec_decode_param (.inr (.inr (.inr (.inr hcap))))⟩
  have hpos := Nat.pos_of_ne_zero hlen
  have hroom := Nat.pos_of_ne_zero hcap
  by_cases hmul : s.lLen % 4 = 0
  · obtain ⟨p, hpad, hshort⟩ := ((h.resolve_left hlen).resolve_left hcap).resolve_left (not_not.mpr hmul)
    obtain ⟨q, rfl⟩ := exists_padc hpad
    exact ⟨q, _, exec_decode_capacity hpos hroom hmul hlt hpad hshort⟩
  · exact ⟨s.padc, _, exec_decode_length hpos hroom hmul⟩

/-- Settles O55: past its START step a DECODE does what `decodeChars` does with its characters, a quartet a step. -/
theorem decodeTotals : Obligations.DecodeTotals := by
  unfold Obligations.DecodeTotals
  intro s cs hp hw hprog hlen hlt _ hsrc
  have hdue : CommandDue s 0x79 cs := ⟨hp, hw, hprog, hlen, hlt, hsrc⟩
  refine ⟨fun p hpos hcap hmul hpad hroom => ?_, fun h => ?_⟩
  · obtain ⟨q, rfl⟩ := exists_padc hpad
    obtain ⟨t, ⟨hrun, hbusy⟩, hphase, hdone, hresult, hstatus, hout, hsame, hdst⟩ :=
      busyFor_decode hdue hpos hmul hcap hpad hroom
    have hexamined := quartetsExamined_le cs
    rw [← hlen] at hexamined
    refine ⟨by omega, ⟨t, hrun, hphase, hdone, hresult, hstatus, hout, hsame, ?_, fun a ha => ?_, fun hok => ?_,
      fun hbad => ?_⟩, hbusy⟩
    · rw [hdst]
      exact holds_writeList s.dst _
    · rw [hdst]
      exact Memory.read_writeList_outside _ s.dst 0 a (.inr (by omega))
    · have hcount : t.outLen = s.lLen / 4 * 3 - q.toNat := by
        rw [hlen] at hmul hpos hpad ⊢
        exact hout.trans (length_decodeChars_of_sourcePad hsrc hmul hpos hpad (hstatus ▸ hok))
      exact ⟨hcount, hcount.trans_le hroom⟩
    · rw [hstatus, hout]
      exact decodeChars_failed (hstatus ▸ hbad)
  · obtain ⟨q, st, hexec⟩ := exec_decode_failed hlt h
    exact ⟨_, runSteps_one ((step_decode hdue).trans hexec), rfl, rfl, s.fit_zero, rfl⟩

end Sys2Proof.Machine
end

section
/-! PROOFS. Errors and faults: the command a START step runs (R232), what an operation that ends in an error records
(R234, R236), and the fault set of a run (R240). -/

namespace Sys2Proof.Machine

/-! ### The START step (R232) -/

/-- What taking a turn does to a busy machine: the choice is consumed where the Host had an action to take (R72). -/
theorem State.takeTurn_of_busy {s : State} (hb : s.phase ≠ .idle) :
    s.takeTurn = { s with turns := if s.program = [] then s.turns else s.turns.tail } := by
  by_cases hp : s.program = []
  · rw [(State.nextAgent_of_noProgram hb hp).2, if_pos hp]
  · rw [State.takeTurn, if_pos ((s.choice_iff).mpr ⟨hb, hp⟩), if_neg hp, State.setTurns]

theorem startStep_of_decode {s : State} {i : Instr} (h : decode s.lCmd = .ok i) : startStep s = exec i s := by
  rw [startStep, h]

/-- Settles O13: the CORE's turn is a START step, and taking the turn leaves PHASE and L_CMD alone. -/
theorem stepRunsDecodedCommand : Obligations.StepRunsDecodedCommand := by
  unfold Obligations.StepRunsDecodedCommand
  intro s i hp hi hcore
  have hstep : step s = coreStep s.takeTurn := by rw [step, hcore]
  rw [hstep, State.takeTurn_of_busy (State.nextAgent_core hcore), coreStep, hp]
  exact startStep_of_decode hi

/-! ### Operations that end in an error (R234, R236) -/

/-- `t` is where an operation has ended with a status other than OK. -/
def EndsInError (t : State) : Prop := t.phase = .idle ∧ t.status ≠ .ok

theorem not_endsInError_of_ok {t : State} (h : t.status = .ok) : ¬EndsInError t := fun ⟨_, hst⟩ => hst h

theorem not_endsInError_of_busy {t : State} (h : t.phase ≠ .idle) : ¬EndsInError t := fun ⟨hidle, _⟩ => h hidle

/-- A rejected quartet gives no byte (R181). -/
theorem decQuartet_of_not_ok {c0 c1 c2 c3 : Byte} {final : Bool} (h : (decQuartet c0 c1 c2 c3 final).status ≠ .ok) :
    (decQuartet c0 c1 c2 c3 final).nbytes = 0 ∧ (decQuartet c0 c1 c2 c3 final).out = 0 := by
  rcases decQuartet_cases c0 c1 c2 c3 final with hc | hc <;> rw [hc] at h ⊢
  · exact absurd rfl h
  · exact ⟨rfl, rfl⟩

theorem beginDecode_busy (s : State) (quartets bodies : Nat) : (s.beginDecode quartets bodies).phase ≠ .idle := by
  rcases s.beginDecode_phase_cases quartets bodies with hp | hp <;> rw [hp] <;> decide

theorem checkCapacity_of_endsInError {s : State} (h : EndsInError s.checkCapacity) :
    s.checkCapacity = s.finish .capacity 0 0 := by
  obtain ⟨-, hc⟩ | ⟨-, hc⟩ := s.checkCapacity_cases
  · exact hc
  · rw [hc] at h
    exact absurd h (not_endsInError_of_busy (beginDecode_busy _ _ _))

/-- A command that fails in its START step reports 0 bytes and RESULT 0; DECODE may have written PADC before it
(R190, R234). -/
theorem exec_of_endsInError {i : Instr} {s t : State} (h : exec i s = .next t) (he : EndsInError t) :
    ∃ p st, t = (s.setPadc p).finish st 0 0 := by
  cases i with
  | enclut | declut | encsize =>
    cases h
    exact absurd he (not_endsInError_of_ok rfl)
  | decsize =>
    by_cases hmul : s.lLen % 4 = 0
    · cases (exec_decsize_of_mod_eq hmul).symm.trans h
      exact absurd he (not_endsInError_of_ok rfl)
    · cases (exec_decsize_of_mod_ne hmul).symm.trans h
      exact ⟨s.padc, _, rfl⟩
  | encgrp k =>
    by_cases hk : k = 0
    · subst hk
      cases h
      exact ⟨s.padc, _, rfl⟩
    · cases (exec_encgrp_of_ne hk).symm.trans h
      exact absurd he (not_endsInError_of_ok rfl)
  | decquad final =>
    cases h
    obtain ⟨-, hst⟩ := he
    obtain ⟨hn, hout⟩ := decQuartet_of_not_ok hst
    rw [hn, hout]
    exact ⟨s.padc, _, rfl⟩
  | encode srcP dstP lenP =>
    rw [exec, execEncode] at h
    split_ifs at h <;> cases h
    · exact ⟨s.padc, _, rfl⟩
    · exact ⟨s.padc, _, rfl⟩
    · exact absurd he (not_endsInError_of_ok rfl)
    · exact absurd he (not_endsInError_of_busy (by simp))
  | decode srcP dstP lenP =>
    rw [exec, execDecode] at h
    split_ifs at h
    · cases h
      exact ⟨s.padc, _, rfl⟩
    · cases h
      exact ⟨s.padc, _, rfl⟩
    · rw [outcomeOf_next, bind_ok] at h
      obtain ⟨p, -, h⟩ := h
      cases h
      exact ⟨p, _, checkCapacity_of_endsInError he⟩

theorem startStep_of_endsInError {s t : State} (h : startStep s = .next t) (he : EndsInError t) :
    ∃ p st, t = (s.setPadc p).finish st 0 0 := by
  cases hi : decode s.lCmd with
  | ok i => exact exec_of_endsInError ((startStep_of_decode hi).symm.trans h) he
  | error e =>
    rw [startStep, hi] at h
    cases h
    exact ⟨s.padc, _, rfl⟩

theorem not_endsInError_endGroup {s : State} (hb : s.phase ≠ .idle) : ¬EndsInError s.endGroup := by
  obtain ⟨-, h⟩ | ⟨-, h⟩ := s.endGroup_cases <;> rw [h]
  · exact not_endsInError_of_busy hb
  · exact not_endsInError_of_ok rfl

theorem not_endsInError_endBody {s : State} (hb : s.phase ≠ .idle) : ¬EndsInError s.endBody := by
  obtain ⟨-, h⟩ | ⟨-, -, h⟩ | ⟨-, -, h⟩ := s.endBody_cases <;> rw [h]
  · exact not_endsInError_of_busy hb
  · exact not_endsInError_of_busy (by simp)
  · exact not_endsInError_of_ok rfl

/-- An error past the START step is a rejected quartet of a DECODE: the step writes no byte and reports the bytes
counted before it (R191, R192, R236). -/
theorem coreStep_of_endsInError {s t : State} (h : coreStep s = .next t) (hb : s.phase ≠ .idle)
    (hstart : s.phase ≠ .start) (he : EndsInError t) :
    ∃ st, (st = .invBody ∨ st = .invFinal) ∧ t = s.finish st s.wcnt 0 := by
  rw [coreStep] at h
  cases hp : s.phase <;> rw [hp] at h
  case idle => exact absurd hp hb
  case start => exact absurd hp hstart
  case encGrp =>
    obtain ⟨-, g, -, -, rfl⟩ := encGroupStep_next h
    exact absurd he (not_endsInError_endGroup hb)
  case decBody =>
    obtain ⟨c, -, ⟨-, -, rfl⟩ | ⟨-, rfl⟩⟩ := decBodyStep_next h
    · exact absurd he (not_endsInError_endBody hb)
    · exact ⟨_, .inl rfl, rfl⟩
  case decFinal =>
    obtain ⟨c, -, ⟨-, -, rfl⟩ | ⟨-, rfl⟩⟩ := decFinalStep_next h
    · exact absurd he (not_endsInError_of_ok rfl)
    · exact ⟨_, .inr rfl, rfl⟩

/-- Settles O48: every error is one `finish` with RESULT 0, of 0 bytes in the START step and of WCNT bytes past it. -/
theorem failingStepRecords : Obligations.FailingStepRecords := by
  unfold Obligations.FailingStepRecords
  intro s t h hb hidle hst
  by_cases hstart : s.phase = .start
  · rw [coreStep, hstart] at h
    obtain ⟨p, st, rfl⟩ := startStep_of_endsInError h ⟨hidle, hst⟩
    exact ⟨rfl, rfl, fun _ => rfl, fun _ => rfl, fun _ => State.fit_zero _, absurd hstart⟩
  · obtain ⟨st, hclass, rfl⟩ := coreStep_of_endsInError h hb hstart ⟨hidle, hst⟩
    exact ⟨rfl, rfl, fun _ => rfl, fun _ => rfl, fun hs => absurd hs hstart, fun _ => ⟨rfl, hclass⟩⟩

end Sys2Proof.Machine

namespace Sys2Proof.Safety

open Sys2Proof.Machine

/-! ### The fault set of a run (R240) -/

theorem Run.advance_of_fault {r : Run} {f : Fault} (h : step r.state = .fault f) :
    f ∈ r.advance.faults ∧ r.advance.state = r.state := by
  rw [Run.advance, h]
  refine ⟨?_, rfl⟩
  dsimp only
  split_ifs with hf
  · exact hf
  · exact List.mem_cons_self

/-- No step clears a recorded fault. -/
theorem Run.mem_faults_advance {r : Run} {f : Fault} (h : f ∈ r.faults) : f ∈ r.advance.faults := by
  unfold Run.advance
  split
  · exact h
  · dsimp only
    split_ifs
    · exact h
    · exact List.mem_cons_of_mem _ h
  · exact h

theorem Run.mem_faults_after {f : Fault} (k : Nat) {r : Run} (h : f ∈ r.faults) : f ∈ (r.after k).faults := by
  induction k generalizing r with
  | zero => exact h
  | succ k ih => exact ih (Run.mem_faults_advance h)

theorem Run.not_final_of_mem_faults {r : Run} {f : Fault} (h : f ∈ r.faults) : r.isFinal = false := by
  have hne : r.faults.isEmpty = false := List.isEmpty_eq_false_iff.mpr (List.ne_nil_of_mem h)
  rw [Run.isFinal, hne, Bool.false_and]

/-- Settles O47: a step only adds to the fault set, and a run whose fault set is not empty is not final. -/
theorem faultsAreRecordedForGood : Obligations.FaultsAreRecordedForGood := by
  unfold Obligations.FaultsAreRecordedForGood
  refine ⟨fun r f h => Run.advance_of_fault h, fun r k f h => ?_⟩
  have hk := Run.mem_faults_after k h
  exact ⟨hk, Run.not_final_of_mem_faults hk⟩

end Sys2Proof.Safety
end

section
/-! PROOFS. Who moves when: an idle CORE waits, a busy one is enabled (R262, R272), and a reset abandons what it was
doing (R261). -/

namespace Sys2Proof.Machine

/-- Where the interleaving says nothing more, a busy CORE has the turn, and there is none to take out (R272). -/
theorem State.nextAgent_of_noTurns {s : State} (hb : s.phase ≠ .idle) (ht : s.turns = []) :
    s.nextAgent = some .core ∧ s.takeTurn = s := by
  by_cases hp : s.program = []
  · exact State.nextAgent_of_noProgram hb hp
  · have hc : s.choice = true := (s.choice_iff).mpr ⟨hb, hp⟩
    rw [State.nextAgent, State.takeTurn, if_pos hc, if_pos hc, ht]
    exact ⟨rfl, congrArg s.setTurns ht.symm⟩

theorem State.nextAgent_of_waiting {s : State} (hidle : s.phase = .idle) (hp : s.program = []) :
    s.nextAgent = none := by
  simp [State.nextAgent, State.choice, hidle, hp]

/-- Settles O41: no agent moves in the one case, and the CORE does in the other, whichever of the two makes it so. -/
theorem busyCoreIsEnabled : Obligations.BusyCoreIsEnabled := by
  unfold Obligations.BusyCoreIsEnabled
  refine fun s => ⟨fun hidle hp => ?_, fun hb henabled => ?_⟩
  · rw [step, State.nextAgent_of_waiting hidle hp]
  · obtain hp | ht := henabled
    · exact step_eq_coreStep hb hp
    · obtain ⟨hcore, hturn⟩ := State.nextAgent_of_noTurns hb ht
      rw [step, hcore]
      exact congrArg coreStep hturn

/-- Settles O43: the step is the Host's, its action sets every register to its power-on value, and a reset is over in
one step. -/
theorem resetAbandonsOperation : Obligations.ResetAbandonsOperation := by
  unfold Obligations.ResetAbandonsOperation
  intro s rest _ hprog hhost
  obtain ⟨ts, hturn⟩ := s.takeTurn_eq
  have hstep : step s = .next ((s.setTurns ts).resetRegs.setProgram rest) := by
    rw [step, hhost, hturn]
    exact hostStep_of_hostAct (s := s.setTurns ts) (op := .reset) hprog rfl
  exact ⟨_, hstep, rfl, rfl, rfl, rfl, rfl, rfl, fun _ => rfl⟩

end Sys2Proof.Machine
end

section
/-! PROOFS. Termination: every CORE step of a busy machine lowers the number of steps its operation has left, and the
step after which none is left is `finish` (R272). -/

namespace Sys2Proof.Machine

open Sys2Proof.Safety

/-! ### One CORE step -/

/-- A CORE step of a busy machine leaves it busy, or is `finish`: there is no other way to PHASE = IDLE (R231). -/
theorem coreStep_busy_or_finished {s t : State} (hb : s.phase ≠ .idle) (h : coreStep s = .next t) :
    t.phase ≠ .idle ∨ Finished t := by
  rw [coreStep] at h
  cases hp : s.phase <;> rw [hp] at h
  case idle => exact absurd hp hb
  case start =>
    obtain ⟨st, ol, r, rfl⟩ | ⟨-, -, -, rfl⟩ | ⟨-, -, -, p, -, rfl⟩ := startStep_next h
    · exact .inr finished_finish
    · exact .inl (by simp)
    · obtain ⟨-, hc⟩ | ⟨-, hc⟩ := (s.setPadc p).checkCapacity_cases <;> rw [hc]
      · exact .inr finished_finish
      · exact .inl (beginDecode_busy _ _ _)
  case encGrp =>
    obtain ⟨-, g, -, -, rfl⟩ := encGroupStep_next h
    obtain ⟨-, he⟩ | ⟨-, he⟩ := (s.putDst _ _).endGroup_cases <;> rw [he]
    · exact .inl hb
    · exact .inr finished_finish
  case decBody =>
    obtain ⟨c, -, ⟨-, -, rfl⟩ | ⟨-, rfl⟩⟩ := decBodyStep_next h
    · obtain ⟨-, he⟩ | ⟨-, -, he⟩ | ⟨-, -, he⟩ := (s.putDst _ _).endBody_cases <;> rw [he]
      · exact .inl hb
      · exact .inl (by simp)
      · exact .inr finished_finish
    · exact .inr finished_finish
  case decFinal =>
    obtain ⟨c, -, ⟨-, -, rfl⟩ | ⟨-, rfl⟩⟩ := decFinalStep_next h <;> exact .inr ⟨rfl, rfl⟩

/-- No CORE step writes SRC, L_LEN or the Host's program (R36, R64). -/
theorem coreStep_keeps_source {s t : State} (h : coreStep s = .next t) :
    (∀ a, t.src.read a = s.src.read a) ∧ t.lLen = s.lLen ∧ t.program = s.program := by
  by_cases hstart : s.phase = .start
  · rw [coreStep, hstart] at h
    obtain ⟨st, ol, r, rfl⟩ | ⟨-, -, -, rfl⟩ | ⟨-, -, -, p, -, rfl⟩ := startStep_next h
    · exact ⟨fun _ => rfl, rfl, rfl⟩
    · exact ⟨fun _ => rfl, rfl, rfl⟩
    · have hframe : StartFrame s (s.setPadc p).checkCapacity := .setPadc_checkCapacity
      obtain ⟨-, hsrc, -, -, -, -, -, -, hlen, -, -, hprog, -⟩ := hframe
      exact ⟨hsrc, hlen, hprog⟩
  · obtain ⟨i, bs, ⟨-, -, hsrc, -, -, -, -, -, hlen, -, -, -, -, -, hprog, -⟩, -⟩ := coreStep_runFrame h hstart
    exact ⟨fun a => congrArg (Memory.read · a) hsrc, hlen, hprog⟩

/-! ### The steps an operation has left -/

/-- The most CORE steps an operation takes from `s` on: the groups or quartets from QIDX on, and before them the START
step (R160, R190). -/
def State.stepsLeft (s : State) : Nat :=
  match s.phase with
  | .idle => 0
  | .start => 1 + (s.lLen + 2) / 3
  | .encGrp => (s.lLen + 2) / 3 - s.qidx
  | .decBody | .decFinal => s.lLen / 4 - s.qidx

theorem State.stepsLeft_le (s : State) : s.stepsLeft ≤ 1 + (s.lLen + 2) / 3 := by
  unfold State.stepsLeft
  split <;> omega

section StepsLeft

variable {s : State}

theorem State.stepsLeft_of_idle (hp : s.phase = .idle) : s.stepsLeft = 0 := by
  rw [State.stepsLeft, hp]

theorem State.stepsLeft_of_start (hp : s.phase = .start) : s.stepsLeft = 1 + (s.lLen + 2) / 3 := by
  rw [State.stepsLeft, hp]

theorem State.stepsLeft_of_encode (hp : s.phase = .encGrp) : s.stepsLeft = (s.lLen + 2) / 3 - s.qidx := by
  rw [State.stepsLeft, hp]

theorem State.stepsLeft_of_decode (hp : s.phase = .decBody ∨ s.phase = .decFinal) :
    s.stepsLeft = s.lLen / 4 - s.qidx := by
  obtain hp | hp := hp <;> rw [State.stepsLeft, hp]

/-- A busy machine has its START step, or the due group or quartet, left. -/
theorem State.stepsLeft_pos (hi : Inv s) (hb : s.phase ≠ .idle) : 0 < s.stepsLeft := by
  obtain ⟨-, -, henc, hbody, hfinal⟩ := hi
  cases hp : s.phase
  case idle => exact absurd hp hb
  case start =>
    rw [State.stepsLeft_of_start hp]
    omega
  case encGrp =>
    obtain ⟨-, -, hgroups, hq, -⟩ := henc hp
    rw [State.stepsLeft_of_encode hp]
    omega
  case decBody =>
    obtain ⟨⟨-, -, -, -, -, hquartets, hbodies, -⟩, hq⟩ := hbody hp
    rw [State.stepsLeft_of_decode (.inl hp)]
    omega
  case decFinal =>
    obtain ⟨⟨-, hpos, hmul, -, -, hquartets, hbodies, -⟩, hpadc, hq⟩ := hfinal hp
    rw [State.stepsLeft_of_decode (.inr hp)]
    rw [if_pos hpadc] at hbodies
    omega

end StepsLeft

/-- A CORE step of a busy machine ends the operation, takes one of its groups or quartets, or is its START step
(R36, R194). -/
theorem coreStep_stepsLeft {s t : State} (hi : Inv s) (hb : s.phase ≠ .idle) (h : coreStep s = .next t) :
    t.stepsLeft < s.stepsLeft := by
  have hleft := State.stepsLeft_pos hi hb
  have ends (ht : t.phase = .idle) : t.stepsLeft < s.stepsLeft := by rwa [State.stepsLeft_of_idle ht]
  obtain ⟨-, hlen, -⟩ := coreStep_keeps_source h
  have hphase := phaseTransitions s t hi h
  cases hp : s.phase <;> rw [hp] at hphase
  case idle => exact absurd hp hb
  case start =>
    rw [State.stepsLeft_of_start hp]
    obtain ht | ⟨-, ht⟩ | ⟨-, ht⟩ := hphase
    · rw [State.stepsLeft_of_idle ht]
      omega
    · rw [State.stepsLeft_of_encode ht]
      omega
    · rw [State.stepsLeft_of_decode ht]
      omega
  case encGrp =>
    obtain ⟨ht, hq⟩ | ⟨ht, -⟩ := hphase
    · rw [State.stepsLeft_of_encode hp] at hleft ⊢
      rw [State.stepsLeft_of_encode ht]
      omega
    · exact ends ht
  case decBody =>
    have advances (ht : t.phase = .decBody ∨ t.phase = .decFinal) (hq : t.qidx = s.qidx + 1) :
        t.stepsLeft < s.stepsLeft := by
      rw [State.stepsLeft_of_decode (.inl hp)] at hleft ⊢
      rw [State.stepsLeft_of_decode ht]
      omega
    obtain ⟨ht, hq⟩ | ⟨ht, hq, -⟩ | ⟨ht, -⟩ := hphase
    · exact advances (.inl ht) hq
    · exact advances (.inr ht) hq
    · exact ends ht
  case decFinal => exact ends hphase.1

/-! ### Runs -/

/-- The invariant, a loaded source and a Host with nothing to do: what O56 asks for, and what every CORE step keeps. -/
structure CoreAlone (s : State) : Prop where
  inv : Inv s
  loaded : Loaded s
  program : s.program = []

theorem CoreAlone.exists_coreStep {s : State} (h : CoreAlone s) (hb : s.phase ≠ .idle) :
    ∃ t, coreStep s = .next t ∧ CoreAlone t := by
  obtain ⟨hi, hloaded, hprog⟩ := h
  obtain ⟨t, ht⟩ := (loadedCoreNeverStops s hi).2 hloaded
  obtain ⟨hsrc, hlen, hprog'⟩ := coreStep_keeps_source ht
  have hi' : Inv t := stepKeepsInvariant s t hi ((step_eq_coreStep hb hprog).trans ht)
  refine ⟨t, ht, hi', fun i hlt => ?_, hprog'.trans hprog⟩
  rw [hsrc]
  exact hloaded i (hlen ▸ hlt)

/-- By the steps left: each CORE step is `finish`, or leaves a busy machine with fewer of them. -/
theorem CoreAlone.finishes {s : State} (h : CoreAlone s) (hb : s.phase ≠ .idle) :
    ∃ k ≤ s.stepsLeft, ∃ t, runSteps k s = .next t ∧ Finished t := by
  obtain ⟨u, hu, hnext⟩ := h.exists_coreStep hb
  have hstep : step s = .next u := (step_eq_coreStep hb h.program).trans hu
  have hlt : u.stepsLeft < s.stepsLeft := coreStep_stepsLeft h.inv hb hu
  obtain hbusy | hfin := coreStep_busy_or_finished hb hu
  · obtain ⟨k, hk, t, hrun, hfin⟩ := hnext.finishes hbusy
    refine ⟨k + 1, by omega, t, ?_, hfin⟩
    rw [runSteps, hstep]
    exact hrun
  · exact ⟨1, by omega, u, runSteps_one hstep, hfin⟩
termination_by s.stepsLeft

/-- Settles O56: the steps left fall with every step, and there are at most 1 + ceil(L_LEN/3) of them to begin with. -/
theorem operationsTerminate : Obligations.OperationsTerminate := by
  unfold Obligations.OperationsTerminate
  intro s hi hloaded hb hprog
  obtain ⟨k, hk, hfin⟩ := CoreAlone.finishes ⟨hi, hloaded, hprog⟩ hb
  exact ⟨k, hk.trans s.stepsLeft_le, hfin⟩

end Sys2Proof.Machine
end
